-- ==== Sys2Proof/Word.lean ====
section
/-! DEFINITION. The byte sequences of the hardware (spec/00_scope.md R10): bytes, 16-byte words, 32-byte data registers and the
array of eight state words. The spec never reads a word as an integer, so a word is sixteen named bytes and not a bit vector.
What is computed with them stands in Machine/Bytes.lean. -/

namespace Sys2Proof

/-- R10: an 8-bit value 0x00–0xFF. -/
abbrev Byte := BitVec 8

/-- A 32-bit register word or command word (R12: an unsigned integer whose bits are numbered from 0). -/
abbrev Word32 := BitVec 32

/-- R10: a word (block, state word) is a sequence of 16 bytes; `b0` is `w[0]`, the byte written first. -/
structure Block where
  (b0 b1 b2 b3 b4 b5 b6 b7 b8 b9 b10 b11 b12 b13 b14 b15 : Byte)
deriving DecidableEq, Repr

/-- R11: `0^16`, the all-zero word. -/
def Block.zero : Block := ⟨0, 0, 0, 0, 0, 0, 0, 0, 0, 0, 0, 0, 0, 0, 0, 0⟩

/-- R10: a 256-bit data register is a sequence of 32 bytes: `lo` is bytes 0–15 and `hi` is bytes 16–31. -/
structure Data where
  lo : Block
  hi : Block
deriving DecidableEq, Repr

/-- `0^32`. -/
def Data.zero : Data := ⟨Block.zero, Block.zero⟩

/-- R31: the array `S[0] … S[7]` of 128-bit state words. -/
structure Lanes where
  (s0 s1 s2 s3 s4 s5 s6 s7 : Block)
deriving DecidableEq, Repr

/-- Eight words `0^16`. -/
def Lanes.zero : Lanes := ⟨Block.zero, Block.zero, Block.zero, Block.zero, Block.zero, Block.zero, Block.zero, Block.zero⟩

end Sys2Proof
end

