-- ==== Sys2Proof/Syntax.lean ====
section
/-! DEFINITION. The commands of AEGIS-CORE: one constructor of `Instr` per row of spec/opcode_table.json (spec/30_encoding.md
R107), with the names their fields take. -/

namespace Sys2Proof

/-- R102: the engine a command selects, the field `VAR`: 0 is AEGIS-128L, 1 is AEGIS-256. -/
inductive Variant where
  | v128L
  | v256
deriving DecidableEq, Repr

/-- R103, R50: the legal tag-size codes 0, 1, 2, for tags of 0, 16 and 32 bytes. Code 3 is illegal (R106) and does not occur
in `STATUS.TLEN` (R50), so the type has no such value. -/
inductive TagSize where
  | t0
  | t16
  | t32
deriving DecidableEq, Repr

/-- R320: the error codes 0 to 7. Codes 8–15 are never produced, so the type has no such value. -/
inductive ErrCode where
  /-- 0 `NONE`: no error. -/
  | none
  /-- 1 `ILLEGAL_OP`: `OP` is not one of the 11 opcodes (R323). -/
  | illegalOp
  /-- 2 `RESERVED_FIELD`: a reserved bit or a field the command does not use is set (R324). -/
  | reservedField
  /-- 3 `BAD_TAGSIZE`: `FINAL` with `TSZ = 3` (R325). -/
  | badTagsize
  /-- 4 `BAD_COUNT`: a partial-block `CNT` outside `1…RATE−1` (R325). -/
  | badCount
  /-- 5 `VARIANT`: the command's `VAR` differs from the session's (R326). -/
  | variant
  /-- 6 `SEQUENCE`: the command is not legal in the current `PHASE` (R327). -/
  | sequence
  /-- 7 `LENGTH`: a counter would reach `2^61` (R328). -/
  | length
deriving DecidableEq, Repr

/-- R101: the eleven legal values of the field `OP`. -/
inductive Op where
  | aesrnd | zeroize | verify | init | abs | absp | enc | encp | dec | decp | final
deriving DecidableEq, Repr

/-- The command set (R107): 19 rows. A partial-block command carries its byte count `n = CNT`, a 5-bit unsigned field (R104);
`FINAL` carries its tag size (R103). A command carries no data, address or register number (R108). -/
inductive Instr where
  | aesrnd
  | zeroize
  | verify
  | init128L
  | abs128L
  | absp128L (n : BitVec 5)
  | enc128L
  | encp128L (n : BitVec 5)
  | dec128L
  | decp128L (n : BitVec 5)
  | final128L (t : TagSize)
  | init256
  | abs256
  | absp256 (n : BitVec 5)
  | enc256
  | encp256 (n : BitVec 5)
  | dec256
  | decp256 (n : BitVec 5)
  | final256 (t : TagSize)
deriving DecidableEq, Repr

end Sys2Proof
end

