-- ==== Sys2Proof/Config.lean ====
section
/-! DEFINITION. What is fixed for AEGIS-CORE rev 1 (spec/00_scope.md R8, spec/10_state.md R42), the open parameters of R9, and
the one free value of the spec: what a read returns while a command is pending (spec/70_reset_and_hazards.md R369). -/

namespace Sys2Proof

/-- R42: the constant value of `ID`. It is a constant and not a register, so it is no field of `State` (R361). -/
def Config.idValue : Word32 := 0xAE610701

/-- R71: the register window holds the offsets below 0x200. -/
def Config.windowSize : Nat := 0x200

/-- R328: a byte counter stays below this bound. -/
def Config.countLimit : Nat := 2 ^ 61

/-- R9 `WINDOW_BASE`: the platform address of register offset 0x000. Open; the accesses of the model carry offsets, and only
`Machine.platformAddress` applies it (notes/assumptions/7.md). -/
opaque Config.windowBase : Nat

/-- R9 `BUS_ERROR_RESPONSE`: what the platform bus answers to a refused access at `offset` of `size` bytes, an uninterpreted
number (notes/assumptions/6.md). Open. -/
opaque Config.busErrorResponse (offset size : Nat) : Nat

/-- R9, R371 `CMD_LATENCY` less one, for a command word. Open. -/
opaque Config.latencyOfWord (w : Word32) : Nat

/-- R9, R371, R372: the same for `VERIFY`, which may depend on `STATUS.TLEN` as well. Open. -/
opaque Config.latencyOfVerify (tlen : TagSize) : Nat

/-- FREE VALUE (notes/assumptions/5.md). R369: a host read of an offset other than `ID` and `STATUS` while `BUSY = 1` returns
any 32-bit value, "a draw, under no law". The argument is the number of draws taken before. -/
opaque Config.busyRead (draw : Nat) : Word32

end Sys2Proof
end

