-- ==== Sys2Proof/WellFormed.lean ====
section
/-! DEFINITION. Which instructions the encoding admits: the field constraints of spec/30_encoding.md R104 and R107. -/

namespace Sys2Proof

/-- R104: the legal range of a `.128L` partial count is 1…31. -/
def countOk128L (n : BitVec 5) : Bool := decide (1 ≤ n.toNat ∧ n.toNat ≤ 31)

/-- R104: the legal range of a `.256` partial count is 1…15. -/
def countOk256 (n : BitVec 5) : Bool := decide (1 ≤ n.toNat ∧ n.toNat ≤ 15)

/-- R107, "field constraint": a partial-block command has a count in its own variant's range. The constraint `TSZ ≠ 3` of
`FINAL` holds of every `TagSize`. -/
def Instr.wellFormed : Instr → Bool
  | .aesrnd => true
  | .zeroize => true
  | .verify => true
  | .init128L => true
  | .abs128L => true
  | .absp128L n => countOk128L n
  | .enc128L => true
  | .encp128L n => countOk128L n
  | .dec128L => true
  | .decp128L n => countOk128L n
  | .final128L _ => true
  | .init256 => true
  | .abs256 => true
  | .absp256 n => countOk256 n
  | .enc256 => true
  | .encp256 n => countOk256 n
  | .dec256 => true
  | .decp256 n => countOk256 n
  | .final256 _ => true

end Sys2Proof
end

