-- ==== Sys2Proof/Decode.lean ====
section
/-! DEFINITION. The command word (spec/30_encoding.md R100–R111): its fields, `Decode`, the encoder, the opcode map as rows of
match and mask, and the assembler's operand forms. -/

namespace Sys2Proof

/-- R100: bits 7:0. -/
def fieldOp (w : Word32) : BitVec 8 := w.extractLsb' 0 8

/-- R100: bit 8. -/
def fieldVar (w : Word32) : Variant := if w.getLsbD 8 then .v256 else .v128L

/-- R100: bits 10:9. -/
def fieldTsz (w : Word32) : BitVec 2 := w.extractLsb' 9 2

/-- R100: bits 20:16. -/
def fieldCnt (w : Word32) : BitVec 5 := w.extractLsb' 16 5

/-- R105, R106: the reserved bits 15:11 and 31:21. -/
def reservedMask : Word32 := 0xFFE0F800

/-- R101: the opcode of each operation. -/
def Op.code : Op → BitVec 8
  | .aesrnd => 0x01
  | .zeroize => 0x02
  | .verify => 0x03
  | .init => 0x10
  | .abs => 0x11
  | .absp => 0x12
  | .enc => 0x13
  | .encp => 0x14
  | .dec => 0x15
  | .decp => 0x16
  | .final => 0x17

/-- R101, R109: the operation of an opcode; every other value is illegal. -/
def opOfCode (c : BitVec 8) : Option Op :=
  if c = 0x01 then some .aesrnd
  else if c = 0x02 then some .zeroize
  else if c = 0x03 then some .verify
  else if c = 0x10 then some .init
  else if c = 0x11 then some .abs
  else if c = 0x12 then some .absp
  else if c = 0x13 then some .enc
  else if c = 0x14 then some .encp
  else if c = 0x15 then some .dec
  else if c = 0x16 then some .decp
  else if c = 0x17 then some .final
  else none

/-- R102: the field `VAR`, one bit. -/
def Variant.code : Variant → BitVec 1
  | .v128L => 0
  | .v256 => 1

/-- R103: the tag-size code. -/
def TagSize.code : TagSize → BitVec 2
  | .t0 => 0
  | .t16 => 1
  | .t32 => 2

/-- R103: the tag size of a code; code 3 is illegal. -/
def tagSizeOfCode (c : BitVec 2) : Option TagSize :=
  if c = 0 then some .t0 else if c = 1 then some .t16 else if c = 2 then some .t32 else none

/-- R106, the three variant-independent commands: `VAR`, `TSZ` and `CNT` must be 0. -/
def decodePlain (w : Word32) (i : Instr) : Except ErrCode Instr :=
  if fieldVar w ≠ .v128L ∨ fieldTsz w ≠ 0 ∨ fieldCnt w ≠ 0 then .error .reservedField else .ok i

/-- R106, `INIT` and the full-block commands: `TSZ` and `CNT` must be 0. -/
def decodeFull (w : Word32) (i128L i256 : Instr) : Except ErrCode Instr :=
  if fieldTsz w ≠ 0 then .error .reservedField
  else if fieldCnt w ≠ 0 then .error .reservedField
  else match fieldVar w with
    | .v128L => .ok i128L
    | .v256 => .ok i256

/-- R106, the partial-block commands: `TSZ` must be 0, and the count lies in `1 … RATE − 1` of the command's own variant. -/
def decodePartial (w : Word32) (i128L i256 : BitVec 5 → Instr) : Except ErrCode Instr :=
  if fieldTsz w ≠ 0 then .error .reservedField
  else match fieldVar w with
    | .v128L => if countOk128L (fieldCnt w) then .ok (i128L (fieldCnt w)) else .error .badCount
    | .v256 => if countOk256 (fieldCnt w) then .ok (i256 (fieldCnt w)) else .error .badCount

/-- R106, `FINAL`: `CNT` must be 0 and `TSZ` must not be 3. -/
def decodeFinal (w : Word32) : Except ErrCode Instr :=
  if fieldCnt w ≠ 0 then .error .reservedField
  else match tagSizeOfCode (fieldTsz w) with
    | none => .error .badTagsize
    | some t => match fieldVar w with
      | .v128L => .ok (.final128L t)
      | .v256 => .ok (.final256 t)

/-- R106 `Decode(w)`, total on all 2^32 words, with its checks in the rule's order. -/
def decode (w : Word32) : Except ErrCode Instr :=
  match opOfCode (fieldOp w) with
  | none => .error .illegalOp
  | some op =>
    if w &&& reservedMask ≠ 0 then .error .reservedField
    else match op with
      | .aesrnd => decodePlain w .aesrnd
      | .zeroize => decodePlain w .zeroize
      | .verify => decodePlain w .verify
      | .init => decodeFull w .init128L .init256
      | .abs => decodeFull w .abs128L .abs256
      | .absp => decodePartial w .absp128L .absp256
      | .enc => decodeFull w .enc128L .enc256
      | .encp => decodePartial w .encp128L .encp256
      | .dec => decodeFull w .dec128L .dec256
      | .decp => decodePartial w .decp128L .decp256
      | .final => decodeFinal w

/-- R100: the word with these fields and reserved bits 0. The parts stand bit 31 first. -/
def commandWord (op : Op) (v : Variant) (tsz : BitVec 2) (cnt : BitVec 5) : Word32 :=
  0#11 ++ cnt ++ 0#5 ++ tsz ++ v.code ++ op.code

/-- R107: the word of a command. -/
def encode : Instr → Word32
  | .aesrnd => commandWord .aesrnd .v128L 0 0
  | .zeroize => commandWord .zeroize .v128L 0 0
  | .verify => commandWord .verify .v128L 0 0
  | .init128L => commandWord .init .v128L 0 0
  | .abs128L => commandWord .abs .v128L 0 0
  | .absp128L n => commandWord .absp .v128L 0 n
  | .enc128L => commandWord .enc .v128L 0 0
  | .encp128L n => commandWord .encp .v128L 0 n
  | .dec128L => commandWord .dec .v128L 0 0
  | .decp128L n => commandWord .decp .v128L 0 n
  | .final128L t => commandWord .final .v128L t.code 0
  | .init256 => commandWord .init .v256 0 0
  | .abs256 => commandWord .abs .v256 0 0
  | .absp256 n => commandWord .absp .v256 0 n
  | .enc256 => commandWord .enc .v256 0 0
  | .encp256 n => commandWord .encp .v256 0 n
  | .dec256 => commandWord .dec .v256 0 0
  | .decp256 n => commandWord .decp .v256 0 n
  | .final256 t => commandWord .final .v256 t.code 0

/-- The name of a command's row in the opcode map (R107). -/
def Instr.mnemonic : Instr → String
  | .aesrnd => "AESRND"
  | .zeroize => "ZEROIZE"
  | .verify => "VERIFY"
  | .init128L => "INIT.128L"
  | .abs128L => "ABS.128L"
  | .absp128L _ => "ABSP.128L"
  | .enc128L => "ENC.128L"
  | .encp128L _ => "ENCP.128L"
  | .dec128L => "DEC.128L"
  | .decp128L _ => "DECP.128L"
  | .final128L _ => "FINAL.128L"
  | .init256 => "INIT.256"
  | .abs256 => "ABS.256"
  | .absp256 _ => "ABSP.256"
  | .enc256 => "ENC.256"
  | .encp256 _ => "ENCP.256"
  | .dec256 => "DEC.256"
  | .decp256 _ => "DECP.256"
  | .final256 _ => "FINAL.256"

/-- The three field constraints of the opcode map (R107). -/
inductive RowConstraint where
  | unconstrained
  | cntRange (lo hi : Nat)
  | tszNot3
deriving DecidableEq, Repr

/-- One row of the opcode map (R107): `w` decodes to the row's command iff `(w & mask) = match` and the constraint holds. -/
structure OpcodeRow where
  mnemonic : String
  matchBits : Word32
  mask : Word32
  constraint : RowConstraint
deriving DecidableEq, Repr

/-- R107, the rows of the variant-independent commands and of AEGIS-128L. -/
def opcodeRows128L : List OpcodeRow := [
  ⟨"AESRND", 0x00000001, 0xFFFFFFFF, .unconstrained⟩,
  ⟨"ZEROIZE", 0x00000002, 0xFFFFFFFF, .unconstrained⟩,
  ⟨"VERIFY", 0x00000003, 0xFFFFFFFF, .unconstrained⟩,
  ⟨"INIT.128L", 0x00000010, 0xFFFFFFFF, .unconstrained⟩,
  ⟨"ABS.128L", 0x00000011, 0xFFFFFFFF, .unconstrained⟩,
  ⟨"ABSP.128L", 0x00000012, 0xFFE0FFFF, .cntRange 1 31⟩,
  ⟨"ENC.128L", 0x00000013, 0xFFFFFFFF, .unconstrained⟩,
  ⟨"ENCP.128L", 0x00000014, 0xFFE0FFFF, .cntRange 1 31⟩,
  ⟨"DEC.128L", 0x00000015, 0xFFFFFFFF, .unconstrained⟩,
  ⟨"DECP.128L", 0x00000016, 0xFFE0FFFF, .cntRange 1 31⟩,
  ⟨"FINAL.128L", 0x00000017, 0xFFFFF9FF, .tszNot3⟩]

/-- R107, the rows of AEGIS-256. -/
def opcodeRows256 : List OpcodeRow := [
  ⟨"INIT.256", 0x00000110, 0xFFFFFFFF, .unconstrained⟩,
  ⟨"ABS.256", 0x00000111, 0xFFFFFFFF, .unconstrained⟩,
  ⟨"ABSP.256", 0x00000112, 0xFFE0FFFF, .cntRange 1 15⟩,
  ⟨"ENC.256", 0x00000113, 0xFFFFFFFF, .unconstrained⟩,
  ⟨"ENCP.256", 0x00000114, 0xFFE0FFFF, .cntRange 1 15⟩,
  ⟨"DEC.256", 0x00000115, 0xFFFFFFFF, .unconstrained⟩,
  ⟨"DECP.256", 0x00000116, 0xFFE0FFFF, .cntRange 1 15⟩,
  ⟨"FINAL.256", 0x00000117, 0xFFFFF9FF, .tszNot3⟩]

/-- R107: "These 19 rows are the whole command set." -/
def opcodeMap : List OpcodeRow := opcodeRows128L ++ opcodeRows256

/-- R107: the field constraint of a row, read on a word. -/
def RowConstraint.holds (w : Word32) : RowConstraint → Bool
  | .unconstrained => true
  | .cntRange lo hi => decide (lo ≤ (fieldCnt w).toNat ∧ (fieldCnt w).toNat ≤ hi)
  | .tszNot3 => fieldTsz w != 3

/-- R107: whether a word is a row's. -/
def OpcodeRow.accepts (r : OpcodeRow) (w : Word32) : Bool :=
  (w &&& r.mask == r.matchBits) && r.constraint.holds w

/-- R111: the tag size in bytes as `FINAL` is written; the assembler refuses any other number. -/
def tagSizeOfBytes (t : Nat) : Option TagSize :=
  if t = 0 then some .t0 else if t = 16 then some .t16 else if t = 32 then some .t32 else none

/-- R111: the byte count of a partial command as it is written, `1 ≤ n ≤ RATE − 1`; the assembler refuses any other. -/
def countOfBytes (rate n : Nat) : Option (BitVec 5) :=
  if 1 ≤ n ∧ n ≤ rate - 1 then some (BitVec.ofNat 5 n) else none

/-- R111: a line of the command syntax, its mnemonic's base, its suffix `<v>` where it has one, and its operand where it has
one. -/
def parseCommand : Op → Option Variant → Option Nat → Option Instr
  | .aesrnd, none, none => some .aesrnd
  | .zeroize, none, none => some .zeroize
  | .verify, none, none => some .verify
  | .init, some .v128L, none => some .init128L
  | .init, some .v256, none => some .init256
  | .abs, some .v128L, none => some .abs128L
  | .abs, some .v256, none => some .abs256
  | .enc, some .v128L, none => some .enc128L
  | .enc, some .v256, none => some .enc256
  | .dec, some .v128L, none => some .dec128L
  | .dec, some .v256, none => some .dec256
  | .absp, some .v128L, some n => (countOfBytes 32 n).map .absp128L
  | .absp, some .v256, some n => (countOfBytes 16 n).map .absp256
  | .encp, some .v128L, some n => (countOfBytes 32 n).map .encp128L
  | .encp, some .v256, some n => (countOfBytes 16 n).map .encp256
  | .decp, some .v128L, some n => (countOfBytes 32 n).map .decp128L
  | .decp, some .v256, some n => (countOfBytes 16 n).map .decp256
  | .final, some .v128L, some t => (tagSizeOfBytes t).map .final128L
  | .final, some .v256, some t => (tagSizeOfBytes t).map .final256
  | _, _, _ => none

/-- R111: the word an assembly line assembles to, none where the assembler refuses it. -/
def assemble (op : Op) (v : Option Variant) (operand : Option Nat) : Option Word32 :=
  (parseCommand op v operand).map encode

/-- The instruction the decoder reads from a command word given as the opcode table numbers its bits (bit 0 the least
significant); every bit from `nbits` up is 0. A command is one 32-bit word (R110). -/
def decodeTableWord (nbits w : Nat) : Option Instr :=
  match decode (BitVec.ofNat 32 (w % 2 ^ nbits)) with
  | .ok i => some i
  | .error _ => none

end Sys2Proof
end

