-- ==== Sys2Proof/Machine/State.lean ====
section
/-! DEFINITION. The state of AEGIS-CORE (spec/10_state.md R30: "the complete architectural state"), as plain data, the inputs of
the host, the faults and refusals, and the state after reset (R58). `ID` is a constant (`Config.idValue`); `CMD` is a port whose
writes go to `pending` (R43, R54); `STATUS` is stored as its fields, and `Machine.statusWord` computes the 32-bit view. -/

namespace Sys2Proof.Machine

/-- R51: the sequencing state of a session, `STATUS.PHASE`. -/
inductive Phase where
  | idle | ad | adPart | msg | msgPart | done
deriving DecidableEq, Repr

/-- One event of the total order of R82 and R363 that comes from outside the core, or leaves the core its turn. Offsets are
relative to the window's base (R71); sizes are in bytes. -/
inductive Input where
  /-- The host reads `size` bytes at `off` (R76, R364). -/
  | read (off size : Nat)
  /-- The host writes `size` bytes at `off`; a 32-bit access writes `v` (R77, R364). -/
  | write (off size : Nat) (v : Word32)
  /-- The core has its turn: it completes the pending command if there is one (R366), else it stays idle (R339). -/
  | core
  /-- The external event reset (R360). -/
  | reset
deriving DecidableEq, Repr

/-- R71: the registers of the window, the data registers with the number of the 32-bit word. -/
inductive Reg where
  | id | cmd | status | adcntLo | adcntHi | msgcntLo | msgcntHi
  | key (k : Nat) | nonce (k : Nat) | din (k : Nat) | dout (k : Nat) | tagin (k : Nat) | tagout (k : Nat)
  | reserved
deriving DecidableEq, Repr

/-- The state: R30's table, and three fields of the model's own (`inputs`, `returned`, `draws` below; notes/assumptions/1.md,
4.md, 5.md). -/
structure State where
  /-- R31: the AEGIS state words `S[0] … S[7]`. -/
  S : Lanes
  /-- R34. -/
  key : Data
  /-- R35. -/
  nonce : Data
  /-- R36. -/
  din : Data
  /-- R37. -/
  dout : Data
  /-- R38. -/
  tagin : Data
  /-- R39. -/
  tagout : Data
  /-- R40: AD bytes absorbed in the session. -/
  adcnt : BitVec 64
  /-- R41: message bytes processed in the session. -/
  msgcnt : BitVec 64
  /-- R46: `STATUS.ERR`. -/
  err : Bool
  /-- R47: `STATUS.BWE`. -/
  bwe : Bool
  /-- R48: `STATUS.AUTH`. -/
  auth : Bool
  /-- R49: `STATUS.VAR`. -/
  var : Variant
  /-- R51: `STATUS.PHASE`. -/
  phase : Phase
  /-- R50: `STATUS.TLEN`. -/
  tlen : TagSize
  /-- R52: `STATUS.ERRCODE`. -/
  errcode : ErrCode
  /-- R53: `STATUS.LASTERR`. -/
  lasterr : ErrCode
  /-- R54: `PENDING`: `some w` is `valid = 1` with `word = w`; `none` is `valid = 0`, where "`word` is then irrelevant"
  (notes/assumptions/10.md). `STATUS.BUSY` is `pending.isSome` (R45). -/
  pending : Option Word32
  /-- THE MODEL'S OWN FIELD: the events still to come from outside, in their order (notes/assumptions/1.md). -/
  inputs : List Input
  /-- THE MODEL'S OWN FIELD: the values the host's reads returned, the newest first (notes/assumptions/4.md). -/
  returned : List Word32
  /-- THE MODEL'S OWN FIELD: how many draws of R369 have been taken, the argument of the next free value
  (notes/assumptions/5.md). -/
  draws : Nat
deriving DecidableEq, Repr

/-- Why a step stops with a fault. -/
inductive Fault where
  /-- R330 `BusRefused(offset, size)`: raised by `step` alone, on a host access that R75 refuses (not 32 bits wide, not 4-aligned,
  or at or above 0x200). No instruction raises it. SAFE: R330 has the model record it as a fault of the interface, and no state
  changes. -/
  | busRefused (offset size : Nat)
deriving DecidableEq, Repr

/-- Why a step has no meaning. -/
inductive Refusal where
  /-- Raised by an arm of `exec` whose instruction has no meaning yet. No arm raises it in this model. SAFE: nothing is proved
  of a refused instruction. -/
  | notModelled (mnemonic : String)
deriving DecidableEq, Repr

/-- R58, R360: the machine right after reset. The model's own fields `inputs`, `returned` and `draws` start empty
(DESIGN CHOICE, notes/assumptions/14.md). -/
def State.reset : State where
  S := Lanes.zero
  key := Data.zero
  nonce := Data.zero
  din := Data.zero
  dout := Data.zero
  tagin := Data.zero
  tagout := Data.zero
  adcnt := 0
  msgcnt := 0
  err := false
  bwe := false
  auth := false
  var := .v128L
  phase := .idle
  tlen := .t0
  errcode := .none
  lasterr := .none
  pending := none
  inputs := []
  returned := []
  draws := 0

end Sys2Proof.Machine
end

