-- ==== Sys2Proof/Machine/Bytes.lean ====
section
/-! DEFINITION. Operations on byte sequences (spec/00_scope.md R11, R13) and the byte order of register words
(spec/20_memory.md R72). A sequence is read by index; beyond its length it reads 0, and no rule reads there. -/

namespace Sys2Proof

/-- R10: `w[i]`. -/
def Block.get (b : Block) : Nat → Byte
  | 0 => b.b0
  | 1 => b.b1
  | 2 => b.b2
  | 3 => b.b3
  | 4 => b.b4
  | 5 => b.b5
  | 6 => b.b6
  | 7 => b.b7
  | 8 => b.b8
  | 9 => b.b9
  | 10 => b.b10
  | 11 => b.b11
  | 12 => b.b12
  | 13 => b.b13
  | 14 => b.b14
  | 15 => b.b15
  | _ => 0

/-- The word whose byte `i` is `f i`. -/
def Block.ofFn (f : Nat → Byte) : Block :=
  ⟨f 0, f 1, f 2, f 3, f 4, f 5, f 6, f 7, f 8, f 9, f 10, f 11, f 12, f 13, f 14, f 15⟩

/-- R11: `a ^ b`, byte by byte. -/
def Block.xor (a b : Block) : Block := Block.ofFn fun i => a.get i ^^^ b.get i

/-- R11: `a & b`, byte by byte. -/
def Block.and (a b : Block) : Block := Block.ofFn fun i => a.get i &&& b.get i

/-- The 16 bytes of a word as a list, `w[0]` first. -/
def Block.toBytes (b : Block) : List Byte := (List.range 16).map b.get

/-- R10: `R[i]` of a data register. -/
def Data.get (d : Data) (i : Nat) : Byte := if i < 16 then d.lo.get i else d.hi.get (i - 16)

/-- The data register whose byte `i` is `f i`. -/
def Data.ofFn (f : Nat → Byte) : Data := ⟨Block.ofFn f, Block.ofFn fun i => f (i + 16)⟩

/-- R11: `a ^ b` on 32-byte sequences. -/
def Data.xor (a b : Data) : Data := ⟨a.lo.xor b.lo, a.hi.xor b.hi⟩

/-- The 32 bytes of a data register as a list, `R[0]` first. -/
def Data.toBytes (d : Data) : List Byte := (List.range 32).map d.get

/-- R31: `S[i]`. -/
def Lanes.get (S : Lanes) : Nat → Block
  | 0 => S.s0
  | 1 => S.s1
  | 2 => S.s2
  | 3 => S.s3
  | 4 => S.s4
  | 5 => S.s5
  | 6 => S.s6
  | 7 => S.s7
  | _ => Block.zero

/-- The state array whose word `i` is `f i`. -/
def Lanes.ofFn (f : Nat → Block) : Lanes := ⟨f 0, f 1, f 2, f 3, f 4, f 5, f 6, f 7⟩

/-- R11: `Pad(x, n, 16)`, for the sequence whose byte `i` is `x i`: the first `n` bytes of `x`, then 0x00. -/
def padBlock (x : Nat → Byte) (n : Nat) : Block := Block.ofFn fun i => if i < n then x i else 0

/-- R11: `Pad(x, n, 32)`. -/
def padData (x : Nat → Byte) (n : Nat) : Data := Data.ofFn fun i => if i < n then x i else 0

/-- R13: byte `i` of `LE64(x)`, that is `(x >> 8i) & 0xFF`. -/
def le64Byte (x : BitVec 64) (i : Nat) : Byte := x.extractLsb' (8 * i) 8

/-- R72: the value of the 32-bit word `k` of a data register; byte `4k` is bits 7:0. -/
def Data.word (d : Data) (k : Nat) : Word32 :=
  d.get (4 * k + 3) ++ d.get (4 * k + 2) ++ d.get (4 * k + 1) ++ d.get (4 * k)

/-- R72: byte `i` (0…3) of a 32-bit register word, `v[8i+7 : 8i]`. -/
def wordByte (v : Word32) (i : Nat) : Byte := v.extractLsb' (8 * i) 8

/-- R77: the data register with its word `k` written: `X[4k+i] <- v[8i+7:8i]` for `i = 0…3`. -/
def Data.setWord (d : Data) (k : Nat) (v : Word32) : Data :=
  Data.ofFn fun j => if j / 4 = k then wordByte v (j % 4) else d.get j

end Sys2Proof
end

