-- ==== Sys2Proof/Machine/Aes.lean ====
section
/-! DEFINITION. The AES round unit (spec/40_aes_round.md R140–R154): GF(2^8) arithmetic, the S-box as the table of R144, the four
steps of the round. -/

namespace Sys2Proof

/-- R142: multiplication by `x` modulo `x^8 + x^4 + x^3 + x + 1`. -/
def xtime (a : Byte) : Byte := (a <<< 1) ^^^ (if a.getLsbD 7 then 0x1B else 0x00)

/-- R142. -/
def mul2 (a : Byte) : Byte := xtime a

/-- R142. -/
def mul3 (a : Byte) : Byte := xtime a ^^^ a

/-- The product of GF(2^8) (R142), by the bits of the second factor: the sum of `a · x^k` over the bits `k` set in `b`. The round
needs only `mul2` and `mul3`; this is what R143's inverse refers to. -/
def gfMul (a b : Byte) : Byte :=
  (List.range 8).foldl (fun acc k => acc ^^^ (if b.getLsbD k then Nat.iterate xtime k a else 0)) 0

/-- R143: the affine part of the S-box, applied to the inverse `i`. -/
def sboxAffine (i : Byte) : Byte :=
  i ^^^ i.rotateLeft 1 ^^^ i.rotateLeft 2 ^^^ i.rotateLeft 3 ^^^ i.rotateLeft 4 ^^^ 0x63

/-- R144: row `hi` of the S-box table, its sixteen entries written as the spec prints them, column 0 first. -/
def sboxRow : Nat → BitVec 128
  | 0x0 => 0x637c777bf26b6fc53001672bfed7ab76
  | 0x1 => 0xca82c97dfa5947f0add4a2af9ca472c0
  | 0x2 => 0xb7fd9326363ff7cc34a5e5f171d83115
  | 0x3 => 0x04c723c31896059a071280e2eb27b275
  | 0x4 => 0x09832c1a1b6e5aa0523bd6b329e32f84
  | 0x5 => 0x53d100ed20fcb15b6acbbe394a4c58cf
  | 0x6 => 0xd0efaafb434d338545f9027f503c9fa8
  | 0x7 => 0x51a3408f929d38f5bcb6da2110fff3d2
  | 0x8 => 0xcd0c13ec5f974417c4a77e3d645d1973
  | 0x9 => 0x60814fdc222a908846eeb814de5e0bdb
  | 0xa => 0xe0323a0a4906245cc2d3ac629195e479
  | 0xb => 0xe7c8376d8dd54ea96c56f4ea657aae08
  | 0xc => 0xba78252e1ca6b4c6e8dd741f4bbd8b8a
  | 0xd => 0x703eb5664803f60e613557b986c11d9e
  | 0xe => 0xe1f8981169d98e949b1e87e9ce5528df
  | _ => 0x8ca1890dbfe6426841992d0fb054bb16

/-- R144: "the entry for byte `a` at row `a >> 4` and column `a & 0x0F`". -/
def sbox (a : Byte) : Byte := (sboxRow (a.toNat / 16)).extractLsb' (8 * (15 - a.toNat % 16)) 8

/-- R145. -/
def subBytes (b : Block) : Block := Block.ofFn fun j => sbox (b.get j)

/-- R146, in byte indices. -/
def shiftRows (b : Block) : Block := Block.ofFn fun j => b.get (j % 4 + 4 * ((j / 4 + j % 4) % 4))

/-- R147: byte `r` of a transformed column `a0 a1 a2 a3`. -/
def mixColumnByte (a0 a1 a2 a3 : Byte) : Nat → Byte
  | 0 => mul2 a0 ^^^ mul3 a1 ^^^ a2 ^^^ a3
  | 1 => a0 ^^^ mul2 a1 ^^^ mul3 a2 ^^^ a3
  | 2 => a0 ^^^ a1 ^^^ mul2 a2 ^^^ mul3 a3
  | _ => mul3 a0 ^^^ a1 ^^^ a2 ^^^ mul2 a3

/-- R147, R141: column `c` is the bytes `4c … 4c+3`, and byte `4c + r` is row `r` of it. -/
def mixColumns (b : Block) : Block := Block.ofFn fun j =>
  mixColumnByte (b.get (4 * (j / 4))) (b.get (4 * (j / 4) + 1)) (b.get (4 * (j / 4) + 2)) (b.get (4 * (j / 4) + 3)) (j % 4)

/-- R148. -/
def addRoundKey (b k : Block) : Block := b.xor k

/-- R140: one full forward AES round, its second operand the round key. -/
def aesRound (block roundKey : Block) : Block := addRoundKey (mixColumns (shiftRows (subBytes block))) roundKey

end Sys2Proof
end

