-- ==== Sys2Proof/Machine/Update.lean ====
section
/-! DEFINITION. The state update, the constants and the length block (spec/41_state_update.md R170–R179). -/

namespace Sys2Proof

/-- R170: word `i` of `Update_N(S, inj)`. The block of its round is the predecessor word, the round key is the word itself XOR its
injection; all words read the snapshot `S`. -/
def updateWord (N : Nat) (S : Lanes) (inj : Nat → Block) (i : Nat) : Block :=
  aesRound (S.get ((i + N - 1) % N)) ((S.get i).xor (inj i))

/-- R171: `inj[0] = m0`, `inj[4] = m1`, else `0^16`. -/
def inject128L (m0 m1 : Block) : Nat → Block
  | 0 => m0
  | 4 => m1
  | _ => Block.zero

/-- R172: `inj[0] = m`, else `0^16`. -/
def inject256 (m : Block) : Nat → Block
  | 0 => m
  | _ => Block.zero

/-- R171: `Update128L(S, m0, m1)`. -/
def update128L (S : Lanes) (m0 m1 : Block) : Lanes := Lanes.ofFn (updateWord 8 S (inject128L m0 m1))

/-- R172: `Update256(S, m)` on `S[0] … S[5]`; `S[6]` and `S[7]` are not written (R32). -/
def update256 (S : Lanes) (m : Block) : Lanes :=
  Lanes.ofFn fun i => if i < 6 then updateWord 6 S (inject256 m) i else S.get i

/-- R175: the Fibonacci sequence modulo 256. -/
def C0 : Block :=
  ⟨0x00, 0x01, 0x01, 0x02, 0x03, 0x05, 0x08, 0x0d, 0x15, 0x22, 0x37, 0x59, 0x90, 0xe9, 0x79, 0x62⟩

/-- R175. -/
def C1 : Block :=
  ⟨0xdb, 0x3d, 0x18, 0x55, 0x6d, 0xc2, 0x2f, 0xf1, 0x20, 0x11, 0x31, 0x42, 0x73, 0xb5, 0x28, 0xdd⟩

/-- R176: `LE64(8 × a mod 2^64) || LE64(8 × m mod 2^64)`. -/
def lenBlock (a m : BitVec 64) : Block :=
  Block.ofFn fun i => if i < 8 then le64Byte (8 * a) i else le64Byte (8 * m) (i - 8)

end Sys2Proof
end

