-- ==== Sys2Proof/Machine/Engines.lean ====
section
/-! DEFINITION. The functions of the two engines: initial state, keystream, finalized state and tag (spec/42_aegis128l.md
R190–R193, spec/43_aegis256.md R230–R233). A tag is a byte sequence of 0, 16 or 32 bytes, hence a list. -/

namespace Sys2Proof

/-- R190: the load, before the ten updates. -/
def load128L (K N : Block) : Lanes :=
  ⟨K.xor N, C1, C0, C1, K.xor N, K.xor C0, K.xor C1, K.xor C0⟩

/-- R190: `Init128L(K, N)`; each update takes `m0 = N`, `m1 = K`. -/
def init128L (K N : Block) : Lanes := Nat.iterate (fun S => update128L S N K) 10 (load128L K N)

/-- R191: `Z128(S) = z0 || z1`. -/
def z128 (S : Lanes) : Data :=
  ⟨(S.s6.xor S.s1).xor (S.s2.and S.s3), (S.s2.xor S.s5).xor (S.s6.and S.s7)⟩

/-- R192: `Tag128L(S, c)`. -/
def tag128L (S : Lanes) : TagSize → List Byte
  | .t0 => []
  | .t16 => ((((((S.s0.xor S.s1).xor S.s2).xor S.s3).xor S.s4).xor S.s5).xor S.s6).toBytes
  | .t32 => (((S.s0.xor S.s1).xor S.s2).xor S.s3).toBytes ++ (((S.s4.xor S.s5).xor S.s6).xor S.s7).toBytes

/-- R193: `Fin128L(S, a, m)`; `t` is computed once and fed to all seven updates, as both halves. -/
def fin128L (S : Lanes) (a m : BitVec 64) : Lanes :=
  Nat.iterate (fun T => update128L T (S.s2.xor (lenBlock a m)) (S.s2.xor (lenBlock a m))) 7 S

/-- R230: the load, before the sixteen updates; `S[6] = S[7] = 0^16` (R240). -/
def load256 (k0 k1 n0 n1 : Block) : Lanes :=
  ⟨k0.xor n0, k1.xor n1, C1, C0, k0.xor C0, k1.xor C1, Block.zero, Block.zero⟩

/-- R230: one iteration of the schedule of four updates. -/
def schedule256 (k0 k1 n0 n1 : Block) (S : Lanes) : Lanes :=
  update256 (update256 (update256 (update256 S k0) k1) (k0.xor n0)) (k1.xor n1)

/-- R230: `Init256(K, N)`. -/
def init256 (K N : Data) : Lanes :=
  Nat.iterate (schedule256 K.lo K.hi N.lo N.hi) 4 (load256 K.lo K.hi N.lo N.hi)

/-- R231: `Z256(S)`. -/
def z256 (S : Lanes) : Block := ((S.s1.xor S.s4).xor S.s5).xor (S.s2.and S.s3)

/-- R232: `Tag256(S, c)`. -/
def tag256 (S : Lanes) : TagSize → List Byte
  | .t0 => []
  | .t16 => (((((S.s0.xor S.s1).xor S.s2).xor S.s3).xor S.s4).xor S.s5).toBytes
  | .t32 => ((S.s0.xor S.s1).xor S.s2).toBytes ++ ((S.s3.xor S.s4).xor S.s5).toBytes

/-- R233: `Fin256(S, a, m)`; `t` is computed once and fed to all seven updates. -/
def fin256 (S : Lanes) (a m : BitVec 64) : Lanes :=
  Nat.iterate (fun T => update256 T (S.s3.xor (lenBlock a m))) 7 S

end Sys2Proof
end

