-- ==== Sys2Proof/Machine/Operands.lean ====
section
/-! DEFINITION. The operand forms of the commands (spec/30_encoding.md R108): the rate of a variant, the byte count of a tag-size
code, the 16-byte operands of AEGIS-128L, and the zero-padded block of a partial command. -/

namespace Sys2Proof

/-- R49, R7: `RATE` in bytes. -/
def rate : Variant → Nat
  | .v128L => 32
  | .v256 => 16

/-- R49, R7: `NW`, the number of state words in use. -/
def stateWords : Variant → Nat
  | .v128L => 8
  | .v256 => 6

/-- R50: `TagBytes(c)`. -/
def tagBytes : TagSize → Nat
  | .t0 => 0
  | .t16 => 16
  | .t32 => 32

namespace Machine

/-- R34: an AEGIS-128L session uses `KEY[0:16]`. -/
def State.key128L (s : State) : Block := s.key.lo

/-- R35: an AEGIS-128L session uses `NONCE[0:16]`. -/
def State.nonce128L (s : State) : Block := s.nonce.lo

/-- R202, R204: `Pad(DIN, n, 32)`, `n = CNT` zero-extended and unscaled (R108). -/
def State.partial128L (s : State) (n : BitVec 5) : Data := padData s.din.get n.toNat

/-- R242, R244: `Pad(DIN, n, 16)`. -/
def State.partial256 (s : State) (n : BitVec 5) : Block := padBlock s.din.get n.toNat

/-- R206: the recovered plaintext `P` of a partial ciphertext block: `T = Pad(DIN, n, 32) ^ Z`, its bytes `n…31` replaced by
zeros. -/
def State.recovered128L (s : State) (n : BitVec 5) : Data :=
  padData ((s.partial128L n).xor (z128 s.S)).get n.toNat

/-- R246: the same on one word. -/
def State.recovered256 (s : State) (n : BitVec 5) : Block :=
  padBlock ((s.partial256 n).xor (z256 s.S)).get n.toNat

end Machine

end Sys2Proof
end

