-- ==== Sys2Proof/Machine/Flags.lean ====
section
/-! DEFINITION. `STATUS` (spec/10_state.md R44–R53) as the host reads it, and the state checks of a command with the phases it is
legal in (R51, spec/60_exceptions.md R326–R328, R331). -/

namespace Sys2Proof

/-- R320: the 4-bit error code. -/
def ErrCode.code : ErrCode → BitVec 4
  | .none => 0
  | .illegalOp => 1
  | .reservedField => 2
  | .badTagsize => 3
  | .badCount => 4
  | .variant => 5
  | .sequence => 6
  | .length => 7

namespace Machine

/-- R51: the code of a phase. The table gives `DONE` the code 5 (DEDUCED, notes/assumptions/9.md: the rule's opening words "5, 6
and 7 do not occur" contradict its table). -/
def Phase.code : Phase → BitVec 3
  | .idle => 0
  | .ad => 1
  | .adPart => 2
  | .msg => 3
  | .msgPart => 4
  | .done => 5

/-- R45: `STATUS.BUSY` is 1 exactly while a command is pending. -/
def State.busy (s : State) : Bool := s.pending.isSome

/-- R44: the 32-bit value of `STATUS`, its fields from bit 31 down; reserved bits read 0. -/
def statusWord (s : State) : Word32 :=
  0#4 ++ s.lasterr.code ++ 0#4 ++ s.errcode.code ++ 0#2 ++ s.tlen.code ++ 0#1 ++ s.phase.code ++ 0#2 ++ s.var.code
    ++ BitVec.ofBool s.auth ++ BitVec.ofBool s.bwe ++ BitVec.ofBool s.err ++ 0#1 ++ BitVec.ofBool s.busy

/-- R51: the phases in which `ABS` and `ABSP` are legal. -/
def absorbPhases : List Phase := [.ad]

/-- R51: the phases in which `ENC`, `ENCP`, `DEC` and `DECP` are legal. -/
def messagePhases : List Phase := [.ad, .adPart, .msg]

/-- R51: the phases in which `FINAL` is legal. -/
def finalPhases : List Phase := [.ad, .adPart, .msg, .msgPart]

/-- R331, the checks `VARIANT` and `SEQUENCE` of a session command of variant `v`, in that order. -/
def orderCheck (v : Variant) (legal : List Phase) (s : State) : ErrCode :=
  if s.phase ≠ .idle ∧ v ≠ s.var then .variant
  else if s.phase ∉ legal then .sequence
  else .none

/-- R331, the same and then `LENGTH` (R328), for a command that adds `k` bytes to `counter`. The sum is exact (R18). -/
def blockCheck (v : Variant) (legal : List Phase) (counter : BitVec 64) (k : Nat) (s : State) : ErrCode :=
  match orderCheck v legal s with
  | .none => if counter.toNat + k ≥ Config.countLimit then .length else .none
  | e => e

/-- R331 `StateCheck`. -/
def stateCheck : Instr → State → ErrCode
  | .aesrnd, _ => .none
  | .zeroize, _ => .none
  | .verify, s => if s.phase = .done then .none else .sequence
  | .init128L, _ => .none
  | .abs128L, s => blockCheck .v128L absorbPhases s.adcnt (rate .v128L) s
  | .absp128L n, s => blockCheck .v128L absorbPhases s.adcnt n.toNat s
  | .enc128L, s => blockCheck .v128L messagePhases s.msgcnt (rate .v128L) s
  | .encp128L n, s => blockCheck .v128L messagePhases s.msgcnt n.toNat s
  | .dec128L, s => blockCheck .v128L messagePhases s.msgcnt (rate .v128L) s
  | .decp128L n, s => blockCheck .v128L messagePhases s.msgcnt n.toNat s
  | .final128L _, s => orderCheck .v128L finalPhases s
  | .init256, _ => .none
  | .abs256, s => blockCheck .v256 absorbPhases s.adcnt (rate .v256) s
  | .absp256 n, s => blockCheck .v256 absorbPhases s.adcnt n.toNat s
  | .enc256, s => blockCheck .v256 messagePhases s.msgcnt (rate .v256) s
  | .encp256 n, s => blockCheck .v256 messagePhases s.msgcnt n.toNat s
  | .dec256, s => blockCheck .v256 messagePhases s.msgcnt (rate .v256) s
  | .decp256 n, s => blockCheck .v256 messagePhases s.msgcnt n.toNat s
  | .final256 _, s => orderCheck .v256 finalPhases s

end Machine

end Sys2Proof
end

