-- ==== Sys2Proof/Machine/Ops.lean ====
section
/-! DEFINITION. The named operations over the state: a command's end with or without an error (spec/60_exceptions.md R321, R322),
the effects the commands share, the host's accesses to the register window (spec/20_memory.md R71–R77), and reset
(spec/70_reset_and_hazards.md R360). -/

namespace Sys2Proof.Machine

/-! ### The end of a command -/

/-- R321 `CmdError(e)`: how the machine takes an error. It is the hardware's only exception mechanism (R333). -/
def State.cmdError (e : ErrCode) (s : State) : State :=
  { s with lasterr := e, errcode := if s.err then s.errcode else e, err := true }

/-- R322: `STATUS.LASTERR <- 0`, the end of a successful command. -/
def State.succeed (s : State) : State := { s with lasterr := .none }

/-- R322, from the state check on: the error `e` if there is one, else the body and then success. A command always completes
(R340). -/
def complete (e : ErrCode) (body : State → State) (s : State) : Host.Outcome State Fault Refusal :=
  match e with
  | .none => .next (body s).succeed
  | e => .next (s.cmdError e)

/-- R54, R366: `PENDING.valid <- 0`. -/
def State.clearPending (s : State) : State := { s with pending := none }

/-! ### The effects of the commands -/

/-- R160: the effect of `AESRND`: `DOUT <- out || 0^16`. -/
def State.roundOutput (out : Block) (s : State) : State := { s with dout := ⟨out, Block.zero⟩ }

/-- R200, R240: the effect of `INIT`, given the variant and the initialized state words. -/
def State.startSession (v : Variant) (S : Lanes) (s : State) : State :=
  { s with S := S, adcnt := 0, msgcnt := 0, var := v, phase := .ad, tlen := .t0, auth := false,
           dout := Data.zero, tagout := Data.zero }

/-- R201, R202, R241, R242: the effect of `ABS` and `ABSP`, given the updated state words, the number `k` of AD bytes and the next
phase. -/
def State.absorb (S : Lanes) (k : Nat) (ph : Phase) (s : State) : State :=
  { s with S := S, adcnt := s.adcnt + BitVec.ofNat 64 k, phase := ph }

/-- R203–R206, R243–R246: the effect of `ENC`, `ENCP`, `DEC` and `DECP`, given the updated state words, the output, the number `k`
of message bytes and the next phase. -/
def State.message (S : Lanes) (out : Data) (k : Nat) (ph : Phase) (s : State) : State :=
  { s with dout := out, S := S, msgcnt := s.msgcnt + BitVec.ofNat 64 k, phase := ph }

/-- R207, R247: the effect of `FINAL`, given the finalized state words, the tag-size code and the tag:
`TAGOUT <- Pad(tag, TagBytes(c), 32)`. -/
def State.finish (S : Lanes) (c : TagSize) (tag : List Byte) (s : State) : State :=
  { s with S := S, tagout := padData (fun i => tag.getD i 0) (tagBytes c), tlen := c, phase := .done }

/-- R270: the accumulated difference `d` of the first `t` bytes, every byte read. -/
def tagDifference (a b : Data) (t : Nat) : Byte :=
  (List.range t).foldl (fun d i => d ||| (a.get i ^^^ b.get i)) 0x00

/-- R270: the effect of `VERIFY`, given the difference `d`. -/
def State.verdict (d : Byte) (s : State) : State :=
  if d = 0x00 then { s with auth := true } else { s with auth := false, dout := Data.zero }

/-- The reset values of everything R58 lists, with the model's own fields kept: the effect of reset (R360). -/
def State.clearAll (s : State) : State :=
  { State.reset with inputs := s.inputs, returned := s.returned, draws := s.draws }

/-- R271: the effect of `ZEROIZE`: everything R58 lists takes its reset value but the command latch, which the completion clears
as for every command (R366). -/
def State.zeroized (s : State) : State := { s.clearAll with pending := s.pending }

/-! ### The register window -/

/-- R75: whether an access of `size` bytes at `off` is admitted: an aligned 32-bit access below 0x200. -/
def admitted (off size : Nat) : Bool := decide (size = 4 ∧ off % 4 = 0 ∧ off < Config.windowSize)

/-- R71: the platform address of an offset. -/
def platformAddress (off : Nat) : Nat := Config.windowBase + off

/-- R71: the register at an offset. -/
def regAt (off : Nat) : Reg :=
  if off = 0x000 then .id
  else if off = 0x004 then .cmd
  else if off = 0x008 then .status
  else if off = 0x010 then .adcntLo
  else if off = 0x014 then .adcntHi
  else if off = 0x018 then .msgcntLo
  else if off = 0x01C then .msgcntHi
  else if 0x100 ≤ off ∧ off < 0x120 then .key ((off - 0x100) / 4)
  else if 0x120 ≤ off ∧ off < 0x140 then .nonce ((off - 0x120) / 4)
  else if 0x140 ≤ off ∧ off < 0x160 then .din ((off - 0x140) / 4)
  else if 0x160 ≤ off ∧ off < 0x180 then .dout ((off - 0x160) / 4)
  else if 0x180 ≤ off ∧ off < 0x1A0 then .tagin ((off - 0x180) / 4)
  else if 0x1A0 ≤ off ∧ off < 0x1C0 then .tagout ((off - 0x1A0) / 4)
  else .reserved

/-- R76: the value a register reads as. -/
def State.readReg (s : State) : Reg → Word32
  | .id => Config.idValue
  | .cmd => 0
  | .status => statusWord s
  | .adcntLo => s.adcnt.extractLsb' 0 32
  | .adcntHi => s.adcnt.extractLsb' 32 32
  | .msgcntLo => s.msgcnt.extractLsb' 0 32
  | .msgcntHi => s.msgcnt.extractLsb' 32 32
  | .key _ => 0
  | .nonce k => s.nonce.word k
  | .din k => s.din.word k
  | .dout k => s.dout.word k
  | .tagin k => s.tagin.word k
  | .tagout k => s.tagout.word k
  | .reserved => 0

/-- R369: whether a read takes a draw: any offset but `ID` and `STATUS`, while a command is pending. -/
def State.isDraw (s : State) (off : Nat) : Bool :=
  s.busy && !(regAt off == .id) && !(regAt off == .status)

/-- R76 `HostRead(off)`, the value returned. -/
def State.hostRead (s : State) (off : Nat) : Word32 :=
  if s.isDraw off then Config.busyRead s.draws else s.readReg (regAt off)

/-- A host read as a step: its value goes to the host; the core's state does not change (R76, R78). -/
def State.afterRead (s : State) (off : Nat) : State :=
  { s with returned := s.hostRead off :: s.returned, draws := if s.isDraw off then s.draws + 1 else s.draws }

/-- R77: the effect of a write to `STATUS`: bit 2 clears `ERR` and `ERRCODE`, bit 3 clears `BWE`. -/
def State.writeStatus (s : State) (v : Word32) : State :=
  { s with err := if v.getLsbD 2 then false else s.err
           errcode := if v.getLsbD 2 then .none else s.errcode
           bwe := if v.getLsbD 3 then false else s.bwe }

/-- R77: the effect of an accepted write (`BUSY = 0`). -/
def State.writeReg (s : State) (v : Word32) : Reg → State
  | .id => s
  | .cmd => { s with pending := some v }
  | .status => s.writeStatus v
  | .adcntLo => s
  | .adcntHi => s
  | .msgcntLo => s
  | .msgcntHi => s
  | .key k => { s with key := s.key.setWord k v }
  | .nonce k => { s with nonce := s.nonce.setWord k v }
  | .din k => { s with din := s.din.setWord k v }
  | .dout _ => s
  | .tagin k => { s with tagin := s.tagin.setWord k v }
  | .tagout _ => s
  | .reserved => s

/-- R77 `HostWrite(off, v)`; while a command is pending the write is dropped and sets `BWE` (R368). -/
def State.hostWrite (s : State) (off : Nat) (v : Word32) : State :=
  if s.busy then { s with bwe := true } else s.writeReg v (regAt off)

/-- R330: the platform's answer to a refused access, open. -/
def Fault.response : Fault → Nat
  | .busRefused off size => Config.busErrorResponse off size

end Sys2Proof.Machine
end

