-- ==== Sys2Proof/Machine/Aegis128L.lean ====
section
/-! DEFINITION. The eight commands of the AEGIS-128L engine (spec/42_aegis128l.md R200–R207). -/

namespace Sys2Proof.Machine

/-- R200 `INIT.128L`. -/
def execInit128L (s : State) : Host.Outcome State Fault Refusal :=
  complete (stateCheck .init128L s) (State.startSession .v128L (init128L s.key128L s.nonce128L)) s

/-- R201 `ABS.128L`. -/
def execAbs128L (s : State) : Host.Outcome State Fault Refusal :=
  complete (stateCheck .abs128L s) (State.absorb (update128L s.S s.din.lo s.din.hi) (rate .v128L) .ad) s

/-- R202 `ABSP.128L n`. -/
def execAbsp128L (n : BitVec 5) (s : State) : Host.Outcome State Fault Refusal :=
  complete (stateCheck (.absp128L n) s)
    (State.absorb (update128L s.S (s.partial128L n).lo (s.partial128L n).hi) n.toNat .adPart) s

/-- R203 `ENC.128L`: the plaintext is fed back, not the ciphertext. -/
def execEnc128L (s : State) : Host.Outcome State Fault Refusal :=
  complete (stateCheck .enc128L s)
    (State.message (update128L s.S s.din.lo s.din.hi) (s.din.xor (z128 s.S)) (rate .v128L) .msg) s

/-- R204 `ENCP.128L n`. -/
def execEncp128L (n : BitVec 5) (s : State) : Host.Outcome State Fault Refusal :=
  complete (stateCheck (.encp128L n) s)
    (State.message (update128L s.S (s.partial128L n).lo (s.partial128L n).hi)
      (padData ((s.partial128L n).xor (z128 s.S)).get n.toNat) n.toNat .msgPart) s

/-- R205 `DEC.128L`: the recovered plaintext is fed back. -/
def execDec128L (s : State) : Host.Outcome State Fault Refusal :=
  complete (stateCheck .dec128L s)
    (State.message (update128L s.S (s.din.xor (z128 s.S)).lo (s.din.xor (z128 s.S)).hi) (s.din.xor (z128 s.S))
      (rate .v128L) .msg) s

/-- R206 `DECP.128L n`. -/
def execDecp128L (n : BitVec 5) (s : State) : Host.Outcome State Fault Refusal :=
  complete (stateCheck (.decp128L n) s)
    (State.message (update128L s.S (s.recovered128L n).lo (s.recovered128L n).hi) (s.recovered128L n) n.toNat .msgPart) s

/-- R207 `FINAL.128L t`. -/
def execFinal128L (t : TagSize) (s : State) : Host.Outcome State Fault Refusal :=
  complete (stateCheck (.final128L t) s)
    (State.finish (fin128L s.S s.adcnt s.msgcnt) t (tag128L (fin128L s.S s.adcnt s.msgcnt) t)) s

end Sys2Proof.Machine
end

