-- ==== Sys2Proof/Machine/Aegis256.lean ====
section
/-! DEFINITION. The eight commands of the AEGIS-256 engine (spec/43_aegis256.md R240–R247). They read `DIN[0:16]` only and write
`DOUT[16:32] = 0^16`. -/

namespace Sys2Proof.Machine

/-- R240 `INIT.256`. -/
def execInit256 (s : State) : Host.Outcome State Fault Refusal :=
  complete (stateCheck .init256 s) (State.startSession .v256 (init256 s.key s.nonce)) s

/-- R241 `ABS.256`. -/
def execAbs256 (s : State) : Host.Outcome State Fault Refusal :=
  complete (stateCheck .abs256 s) (State.absorb (update256 s.S s.din.lo) (rate .v256) .ad) s

/-- R242 `ABSP.256 n`. -/
def execAbsp256 (n : BitVec 5) (s : State) : Host.Outcome State Fault Refusal :=
  complete (stateCheck (.absp256 n) s) (State.absorb (update256 s.S (s.partial256 n)) n.toNat .adPart) s

/-- R243 `ENC.256`: the plaintext is fed back. -/
def execEnc256 (s : State) : Host.Outcome State Fault Refusal :=
  complete (stateCheck .enc256 s)
    (State.message (update256 s.S s.din.lo) ⟨s.din.lo.xor (z256 s.S), Block.zero⟩ (rate .v256) .msg) s

/-- R244 `ENCP.256 n`. -/
def execEncp256 (n : BitVec 5) (s : State) : Host.Outcome State Fault Refusal :=
  complete (stateCheck (.encp256 n) s)
    (State.message (update256 s.S (s.partial256 n)) (padData ((s.partial256 n).xor (z256 s.S)).get n.toNat)
      n.toNat .msgPart) s

/-- R245 `DEC.256`: the recovered plaintext is fed back. -/
def execDec256 (s : State) : Host.Outcome State Fault Refusal :=
  complete (stateCheck .dec256 s)
    (State.message (update256 s.S (s.din.lo.xor (z256 s.S))) ⟨s.din.lo.xor (z256 s.S), Block.zero⟩ (rate .v256) .msg) s

/-- R246 `DECP.256 n`. -/
def execDecp256 (n : BitVec 5) (s : State) : Host.Outcome State Fault Refusal :=
  complete (stateCheck (.decp256 n) s)
    (State.message (update256 s.S (s.recovered256 n)) ⟨s.recovered256 n, Block.zero⟩ n.toNat .msgPart) s

/-- R247 `FINAL.256 t`. -/
def execFinal256 (t : TagSize) (s : State) : Host.Outcome State Fault Refusal :=
  complete (stateCheck (.final256 t) s)
    (State.finish (fin256 s.S s.adcnt s.msgcnt) t (tag256 (fin256 s.S s.adcnt s.msgcnt) t)) s

end Sys2Proof.Machine
end

