-- ==== Sys2Proof/Machine/Control.lean ====
section
/-! DEFINITION. The variant-independent commands: `AESRND` (spec/40_aes_round.md R160), `VERIFY` and `ZEROIZE`
(spec/44_verify_control.md R270, R271). -/

namespace Sys2Proof.Machine

/-- R160 `AESRND`: the round unit on `DIN.lo` (block) and `DIN.hi` (round key). -/
def execAesrnd (s : State) : Host.Outcome State Fault Refusal :=
  complete (stateCheck .aesrnd s) (State.roundOutput (aesRound s.din.lo s.din.hi)) s

/-- R271 `ZEROIZE`. -/
def execZeroize (s : State) : Host.Outcome State Fault Refusal :=
  complete (stateCheck .zeroize s) State.zeroized s

/-- R270 `VERIFY`: the first `TagBytes(STATUS.TLEN)` bytes of `TAGIN` and `TAGOUT`. -/
def execVerify (s : State) : Host.Outcome State Fault Refusal :=
  complete (stateCheck .verify s) (State.verdict (tagDifference s.tagin s.tagout (tagBytes s.tlen))) s

end Sys2Proof.Machine
end

