-- ==== Sys2Proof/Machine/Dispatch.lean ====
section
/-! DEFINITION. One arm per command (spec/30_encoding.md R107): what the completion of a decoded command does
(spec/60_exceptions.md R322 after `Decode`). -/

namespace Sys2Proof.Machine

def exec (i : Instr) (s : State) : Host.Outcome State Fault Refusal :=
  match i with
  | .aesrnd => Sys2Proof.Machine.execAesrnd s
  | .zeroize => Sys2Proof.Machine.execZeroize s
  | .verify => Sys2Proof.Machine.execVerify s
  | .init128L => Sys2Proof.Machine.execInit128L s
  | .abs128L => Sys2Proof.Machine.execAbs128L s
  | .absp128L n => Sys2Proof.Machine.execAbsp128L n s
  | .enc128L => Sys2Proof.Machine.execEnc128L s
  | .encp128L n => Sys2Proof.Machine.execEncp128L n s
  | .dec128L => Sys2Proof.Machine.execDec128L s
  | .decp128L n => Sys2Proof.Machine.execDecp128L n s
  | .final128L t => Sys2Proof.Machine.execFinal128L t s
  | .init256 => Sys2Proof.Machine.execInit256 s
  | .abs256 => Sys2Proof.Machine.execAbs256 s
  | .absp256 n => Sys2Proof.Machine.execAbsp256 n s
  | .enc256 => Sys2Proof.Machine.execEnc256 s
  | .encp256 n => Sys2Proof.Machine.execEncp256 n s
  | .dec256 => Sys2Proof.Machine.execDec256 s
  | .decp256 n => Sys2Proof.Machine.execDecp256 n s
  | .final256 t => Sys2Proof.Machine.execFinal256 t s

end Sys2Proof.Machine
end

