-- ==== Sys2Proof/Machine/Completion.lean ====
section
/-! DEFINITION. The core step (spec/70_reset_and_hazards.md R366) and the steps of the host (R364), each as a function of the
state; `Machine.step` calls them. -/

namespace Sys2Proof.Machine

/-- R322 `Execute(w)`: a word that does not decode ends with its error; a command runs. -/
def execute (w : Word32) (s : State) : Host.Outcome State Fault Refusal :=
  match decode w with
  | .error e => .next (s.cmdError e)
  | .ok i => exec i s

/-- R366 `CoreStep()`: it is enabled exactly when a command is pending; with none pending the core is idle (R339; DEDUCED,
notes/assumptions/3.md). -/
def coreStep (s : State) : Host.Outcome State Fault Refusal :=
  match s.pending with
  | none => .next s
  | some w =>
    match execute w s with
    | .next t => .next t.clearPending
    | .fault f => .fault f
    | .refused r => .refused r

/-- R364, R75, R76: a read by the host; a refused one is the fault `BusRefused` (R330). -/
def readStep (off size : Nat) (s : State) : Host.Outcome State Fault Refusal :=
  if admitted off size then .next (s.afterRead off) else .fault (.busRefused off size)

/-- R364, R75, R77: a write by the host; a refused one is the fault `BusRefused` (R330). -/
def writeStep (off size : Nat) (v : Word32) (s : State) : Host.Outcome State Fault Refusal :=
  if admitted off size then .next (s.hostWrite off v) else .fault (.busRefused off size)

/-- R363: one event. -/
def inputStep (e : Input) (s : State) : Host.Outcome State Fault Refusal :=
  match e with
  | .read off size => readStep off size s
  | .write off size v => writeStep off size v s
  | .core => coreStep s
  | .reset => .next s.clearAll

end Sys2Proof.Machine
end

