-- ==== Sys2Proof/Machine/Step.lean ====
section
/-! DEFINITION. One step of the machine (spec/70_reset_and_hazards.md R363): the next event from outside; where none is left, the
core has its turn for ever, so that a pending command is eventually completed (R340, R366). -/

namespace Sys2Proof.Machine

/-- R363. The order of the events is the list's; a statement over every state is one over every order (notes/assumptions/1.md,
2.md). -/
def step (s : State) : Host.Outcome State Fault Refusal :=
  match s.inputs with
  | [] => coreStep s
  | e :: rest => inputStep e { s with inputs := rest }

/-- `s` with the command word `w` (its bits from `nbits` up 0) accepted into the command latch, as an accepted `CMD` write leaves it
(R43, R54), and the core's turn next, so that the very next step completes exactly it (notes/assumptions/16.md). -/
def State.withFetchWord (s : State) (nbits w : Nat) : State :=
  { s with pending := some (BitVec.ofNat 32 (w % 2 ^ nbits)), inputs := .core :: s.inputs }

end Sys2Proof.Machine
end

