-- ==== Sys2Proof/Machine/Aead.lean ====
section
/-! DEFINITION. The AEAD functions of spec/49_host_procedures.md R290–R292, on byte sequences of any length (lists). They are
mathematical functions of the engines' functions; no command computes one alone. -/

namespace Sys2Proof

/-- R290 `KeySize`. -/
def keySize : Variant → Nat
  | .v128L => 16
  | .v256 => 32

/-- R290 `NonceSize`. -/
def nonceSize : Variant → Nat
  | .v128L => 16
  | .v256 => 32

/-- R11: `x[i:j]`. -/
def slice (x : List Byte) (i j : Nat) : List Byte := (x.drop i).take (j - i)

/-- R11: `Pad(x, n, L)` on byte sequences. -/
def padBytes (x : List Byte) (n L : Nat) : List Byte := x.take n ++ List.replicate (L - n) 0

/-- R11: `a ^ b` on byte sequences of one length. -/
def xorBytes (a b : List Byte) : List Byte := List.zipWith (fun x y => x ^^^ y) a b

/-- The word whose bytes are those of the sequence. -/
def blockOf (x : List Byte) : Block := Block.ofFn fun i => x.getD i 0

/-- The 32-byte sequence whose bytes are those of the sequence. -/
def dataOf (x : List Byte) : Data := Data.ofFn fun i => x.getD i 0

/-- R290 `Init_v`. -/
def initV (v : Variant) (K N : List Byte) : Lanes :=
  match v with
  | .v128L => init128L (blockOf K) (blockOf N)
  | .v256 => init256 (dataOf K) (dataOf N)

/-- R290 `Upd_v(S, B)`, `B` of `RATE` bytes. -/
def updV (v : Variant) (S : Lanes) (B : List Byte) : Lanes :=
  match v with
  | .v128L => update128L S (blockOf (slice B 0 16)) (blockOf (slice B 16 32))
  | .v256 => update256 S (blockOf B)

/-- R290 `Z_v`, `RATE` bytes. -/
def zV (v : Variant) (S : Lanes) : List Byte :=
  match v with
  | .v128L => (z128 S).toBytes
  | .v256 => (z256 S).toBytes

/-- R290 `Fin_v(S, a, m)` for byte counts below `2^61`. -/
def finV (v : Variant) (S : Lanes) (a m : Nat) : Lanes :=
  match v with
  | .v128L => fin128L S (BitVec.ofNat 64 a) (BitVec.ofNat 64 m)
  | .v256 => fin256 S (BitVec.ofNat 64 a) (BitVec.ofNat 64 m)

/-- R290 `Tag_v`. -/
def tagV (v : Variant) (S : Lanes) (t : TagSize) : List Byte :=
  match v with
  | .v128L => tag128L S t
  | .v256 => tag256 S t

/-- R291: the absorption of the associated data `A`: its full blocks, then the zero-padded rest if there is one. -/
def absorbAll (v : Variant) (S : Lanes) (A : List Byte) : Lanes :=
  let full := (List.range (A.length / rate v)).foldl
    (fun T j => updV v T (slice A (j * rate v) ((j + 1) * rate v))) S
  let r := A.length % rate v
  if r > 0 then updV v full (padBytes (slice A (A.length - r) A.length) r (rate v)) else full

/-- R291, R292: the number of message blocks, `ceil(len / RATE)`. -/
def blockCount (v : Variant) (len : Nat) : Nat := (len + rate v - 1) / rate v

/-- R291, R292: the bytes of message block `j`, `n = min(RATE, |M| − j·RATE)` of them. -/
def blockLength (v : Variant) (len j : Nat) : Nat := min (rate v) (len - j * rate v)

/-- R291: block `j` of the encryption, on the ciphertext so far and the state. -/
def encryptBlock (v : Variant) (M : List Byte) (acc : List Byte × Lanes) (j : Nat) : List Byte × Lanes :=
  let n := blockLength v M.length j
  let P := padBytes (slice M (j * rate v) (j * rate v + n)) n (rate v)
  (acc.1 ++ (xorBytes P (zV v acc.2)).take n, updV v acc.2 P)

/-- R292: block `j` of the decryption, on the plaintext so far and the state. -/
def decryptBlock (v : Variant) (C : List Byte) (acc : List Byte × Lanes) (j : Nat) : List Byte × Lanes :=
  let n := blockLength v C.length j
  let Q := padBytes (xorBytes (padBytes (slice C (j * rate v) (j * rate v + n)) n (rate v)) (zV v acc.2)) n (rate v)
  (acc.1 ++ Q.take n, updV v acc.2 Q)

/-- R291: all blocks of the encryption. -/
def encryptBlocks (v : Variant) (S : Lanes) (M : List Byte) : List Byte × Lanes :=
  (List.range (blockCount v M.length)).foldl (encryptBlock v M) ([], S)

/-- R292: all blocks of the decryption. -/
def decryptBlocks (v : Variant) (S : Lanes) (C : List Byte) : List Byte × Lanes :=
  (List.range (blockCount v C.length)).foldl (decryptBlock v C) ([], S)

/-- R291 `AeadEncrypt_v(K, N, A, M, t)`. -/
def aeadEncrypt (v : Variant) (K N A M : List Byte) (t : TagSize) : List Byte :=
  let out := encryptBlocks v (absorbAll v (initV v K N) A) M
  out.1 ++ tagV v (finV v out.2 A.length M.length) t

/-- R292 `AeadDecrypt_v(K, N, A, X, t)`, for `|X| ≥ t`. -/
def aeadDecrypt (v : Variant) (K N A X : List Byte) (t : TagSize) : Bool × List Byte :=
  let C := slice X 0 (X.length - tagBytes t)
  let T := slice X (X.length - tagBytes t) X.length
  let out := decryptBlocks v (absorbAll v (initV v K N) A) C
  if tagV v (finV v out.2 A.length C.length) t = T then (true, out.1)
  else (false, List.replicate out.1.length 0)

end Sys2Proof
end

