-- ==== Sys2Proof/Machine/Procedures.lean ====
section
/-! DEFINITION. The host pseudo-instructions of spec/30_encoding.md R112 and the host procedures of spec/49_host_procedures.md
R294–R296, as sequences of the host's accesses and the core's turns. `WR off, v` is `State.hostWrite`. How long a command stays
pending is open (R363, R371): `wait s` is how many reads of a `POLL` that starts at `s` come before the core's turn. The states of a
run differ in what the host has read, so some `wait` gives every schedule (notes/assumptions/17.md). -/

namespace Sys2Proof.Machine

/-- R112: the 32-bit word `k` of a byte string, padded with 0x00 to a multiple of 4 bytes. -/
def wordOfBytes (x : List Byte) (k : Nat) : Word32 :=
  x.getD (4 * k + 3) 0 ++ x.getD (4 * k + 2) 0 ++ x.getD (4 * k + 1) 0 ++ x.getD (4 * k) 0

/-- R112 `LDKEY`, `LDNONCE`, `LDDIN`, `LDTAG`, at bases 0x100, 0x120, 0x140, 0x180: one write per 4-byte group. DESIGN CHOICE
(notes/assumptions/22.md): the core has no turn between the writes of one line. -/
def loadBytes (base : Nat) (x : List Byte) (s : State) : State :=
  (List.range ((x.length + 3) / 4)).foldl (fun t k => t.hostWrite (base + 4 * k) (wordOfBytes x k)) s

/-- R112 `RD off -> name`: the value of `name`, and the state after the read. -/
def rd (off : Nat) (s : State) : Word32 × State := (s.hostRead off, s.afterRead off)

/-- The core's turn between two accesses of the host: it completes the pending command if there is one (R366). No command faults or is
refused; if one did, the state would stand. -/
def coreTurn (s : State) : State :=
  match coreStep s with
  | .next t => t
  | .fault _ => s
  | .refused _ => s

/-- R112 `POLL`: repeat `RD 0x008 -> s` until `s[0] = 0`, the core's turn coming when `n` reads have found `s[0] = 1`. The value of
`s`, and the state after. With no command pending already the first read ends the loop; after the core's turn the next one does
(`poll_ends`). -/
def poll : Nat → State → Word32 × State
  | 0, s => rd 0x008 (coreTurn s)
  | n + 1, s =>
    let r := rd 0x008 s
    if r.1.getLsbD 0 = false then r else poll n r.2

/-- R112 `<command>`: `WR 0x004, enc(<command>)`, then `POLL`. -/
def issue (wait : State → Nat) (i : Instr) (s : State) : State :=
  let t := s.hostWrite 0x004 (encode i)
  (poll (wait t) t).2

/-- R112 `RDOUT k` (base 0x160), `RDTAG k` (base 0x1A0): the bytes of `k` words, read one after another, each read from the state the
one before left (R369: each takes a draw of its own while a command is pending).
DESIGN CHOICE (notes/assumptions/22.md): the core has no turn between the reads of one line. -/
def readBytes (base k : Nat) (s : State) : List Byte × State :=
  (List.range k).foldl (fun acc j =>
    let r := rd (base + 4 * j) acc.2
    (acc.1 ++ (List.range 4).map (wordByte r.1), r.2)) ([], s)

/-- R112 `CLRERR`. -/
def clearErrors (s : State) : State := s.hostWrite 0x008 0x0000000C

/-- R111: `INIT.v`. -/
def initOf : Variant → Instr
  | .v128L => .init128L
  | .v256 => .init256

/-- R111: `ABS.v`. -/
def absOf : Variant → Instr
  | .v128L => .abs128L
  | .v256 => .abs256

/-- R111: `ABSP.v n`. -/
def abspOf (v : Variant) (n : Nat) : Instr :=
  match v with
  | .v128L => .absp128L (BitVec.ofNat 5 n)
  | .v256 => .absp256 (BitVec.ofNat 5 n)

/-- R111: `ENC.v`. -/
def encOf : Variant → Instr
  | .v128L => .enc128L
  | .v256 => .enc256

/-- R111: `ENCP.v n`. -/
def encpOf (v : Variant) (n : Nat) : Instr :=
  match v with
  | .v128L => .encp128L (BitVec.ofNat 5 n)
  | .v256 => .encp256 (BitVec.ofNat 5 n)

/-- R111: `DEC.v`. -/
def decOf : Variant → Instr
  | .v128L => .dec128L
  | .v256 => .dec256

/-- R111: `DECP.v n`. -/
def decpOf (v : Variant) (n : Nat) : Instr :=
  match v with
  | .v128L => .decp128L (BitVec.ofNat 5 n)
  | .v256 => .decp256 (BitVec.ofNat 5 n)

/-- R111: `FINAL.v t`. -/
def finalOf (v : Variant) (t : TagSize) : Instr :=
  match v with
  | .v128L => .final128L t
  | .v256 => .final256 t

/-- R294: the host's checks that concern lengths. A tag size is legal by its type. -/
def validLengths (v : Variant) (K N A M : List Byte) : Bool :=
  decide (K.length = keySize v ∧ N.length = nonceSize v ∧ A.length < 2 ^ 61 ∧ M.length < 2 ^ 61)

/-- R295, R296: `LDKEY K; LDNONCE N; INIT.v`. -/
def openSession (wait : State → Nat) (v : Variant) (K N : List Byte) (s : State) : State :=
  issue wait (initOf v) (loadBytes 0x120 N (loadBytes 0x100 K s))

/-- R295: the associated data: `LDDIN a; ABS.v` for each full block, then `LDDIN; ABSP.v r` for the rest if there is one. -/
def absorbAd (wait : State → Nat) (v : Variant) (A : List Byte) (s : State) : State :=
  let full := (List.range (A.length / rate v)).foldl
    (fun t j => issue wait (absOf v) (loadBytes 0x140 (slice A (j * rate v) ((j + 1) * rate v)) t)) s
  let r := A.length % rate v
  if r > 0 then issue wait (abspOf v r) (loadBytes 0x140 (slice A (A.length - r) A.length) full) else full

/-- R295, R296: one block: `LDDIN x; <command>; RDOUT W -> c`, with the first `n` bytes of `c` put to the output so far. -/
def processBlock (wait : State → Nat) (v : Variant) (cmd : Instr) (x : List Byte) (n : Nat) (acc : List Byte × State) :
    List Byte × State :=
  let c := readBytes 0x160 (rate v / 4) (issue wait cmd (loadBytes 0x140 x acc.2))
  (acc.1 ++ c.1.take n, c.2)

/-- R295, R296: the message: every full block with `full`, then the last `r` bytes with `part r`. -/
def processMessage (wait : State → Nat) (v : Variant) (full : Instr) (part : Nat → Instr) (M : List Byte) (s : State) :
    List Byte × State :=
  let blocks := (List.range (M.length / rate v)).foldl
    (fun acc j => processBlock wait v full (slice M (j * rate v) ((j + 1) * rate v)) (rate v) acc) ([], s)
  let r := M.length % rate v
  if r > 0 then processBlock wait v (part r) (slice M (M.length - r) M.length) r blocks else blocks

/-- R295 `HostEncrypt(v, K, N, A, M, t)`: the bytes returned and the machine left; none where the host's validation refuses the
call or `STATUS.ERR` is set at its end. -/
def hostEncrypt (wait : State → Nat) (v : Variant) (K N A M : List Byte) (t : TagSize) (s : State) :
    Option (List Byte × State) :=
  if validLengths v K N A M then
    let out := processMessage wait v (encOf v) (encpOf v) M (absorbAd wait v A (openSession wait v K N s))
    let tag := readBytes 0x1A0 (tagBytes t / 4) (issue wait (finalOf v t) out.2)
    let status := rd 0x008 tag.2
    if status.1.getLsbD 2 then none
    else some (out.1 ++ tag.1, issue wait .zeroize status.2)
  else none

/-- R296 `HostTryDecrypt(v, K, N, A, X, t)`: the verdict, the plaintext released and the machine left. -/
def hostTryDecrypt (wait : State → Nat) (v : Variant) (K N A X : List Byte) (t : TagSize) (s : State) :
    Option (Bool × List Byte × State) :=
  if tagBytes t ≤ X.length ∧ validLengths v K N A (slice X 0 (X.length - tagBytes t)) then
    let C := slice X 0 (X.length - tagBytes t)
    let T := slice X (X.length - tagBytes t) X.length
    let out := processMessage wait v (decOf v) (decpOf v) C (absorbAd wait v A (openSession wait v K N s))
    let status := rd 0x008 (issue wait .verify (loadBytes 0x180 T (issue wait (finalOf v t) out.2)))
    if status.1.getLsbD 2 then none
    else if status.1.getLsbD 4 then some (true, out.1, issue wait .zeroize status.2)
    else some (false, List.replicate C.length 0, issue wait .zeroize status.2)
  else none

end Sys2Proof.Machine
end

