-- ==== Sys2Proof/Machine/Timing.lean ====
section
/-! DEFINITION. What the spec says of timing (spec/70_reset_and_hazards.md R371, R372): the latency as an open parameter of the
command word, and the AES rounds of each command's step. The step function counts no cycles (notes/assumptions/8.md). -/

namespace Sys2Proof.Machine

/-- R9, R371 `CMD_LATENCY`: cycles from an accepted `CMD` write to the core step, at least 1. It depends on the command word and, for
`VERIFY`, on `STATUS.TLEN`, and on nothing else (R372). -/
def cmdLatency (w : Word32) (tlen : TagSize) : Nat :=
  if w = encode .verify then Config.latencyOfVerify tlen + 1 else Config.latencyOfWord w + 1

/-- R371: the AES rounds of an update of variant `v`. -/
def roundsOfUpdate (v : Variant) : Nat := stateWords v

/-- R371: the AES rounds in a command's step. -/
def aesRounds : Instr → Nat
  | .aesrnd => 1
  | .zeroize => 0
  | .verify => 0
  | .init128L => 10 * roundsOfUpdate .v128L
  | .abs128L => roundsOfUpdate .v128L
  | .absp128L _ => roundsOfUpdate .v128L
  | .enc128L => roundsOfUpdate .v128L
  | .encp128L _ => roundsOfUpdate .v128L
  | .dec128L => roundsOfUpdate .v128L
  | .decp128L _ => roundsOfUpdate .v128L
  | .final128L _ => 7 * roundsOfUpdate .v128L
  | .init256 => 16 * roundsOfUpdate .v256
  | .abs256 => roundsOfUpdate .v256
  | .absp256 _ => roundsOfUpdate .v256
  | .enc256 => roundsOfUpdate .v256
  | .encp256 _ => roundsOfUpdate .v256
  | .dec256 => roundsOfUpdate .v256
  | .decp256 _ => roundsOfUpdate .v256
  | .final256 _ => 7 * roundsOfUpdate .v256

end Sys2Proof.Machine
end

