-- ==== Sys2Proof/Safety.lean ====
section
/-! DEFINITION. The terms the claims use: when a command may run, the record an error leaves, what a safe run is, and the
invariants of the machine. -/

namespace Sys2Proof.Machine

/-- A step that gives a next state: it neither faults nor is refused. -/
def Completes (o : Host.Outcome State Fault Refusal) : Prop := ∃ t, o = .next t

/-- `k` steps, stopping at the first fault or refusal: a run of R363. -/
def runSteps : Nat → State → Host.Outcome State Fault Refusal
  | 0, s => .next s
  | k + 1, s =>
    match step s with
    | .next t => runSteps k t
    | .fault f => .fault f
    | .refused r => .refused r

/-- Every access the host has still to make is admitted (R75): such a run records no `BusRefused`, so it has a valid end
(R374). -/
def AllAdmitted (l : List Input) : Prop :=
  ∀ e ∈ l, match e with
    | .read off size => admitted off size = true
    | .write off size _ => admitted off size = true
    | .core => True
    | .reset => True

/-- R102, R326: the variant a session command carries; none for `INIT`, `AESRND`, `ZEROIZE` and `VERIFY`, which are never checked
against the session's. -/
def sessionVariant : Instr → Option Variant
  | .aesrnd => none
  | .zeroize => none
  | .verify => none
  | .init128L => none
  | .abs128L => some .v128L
  | .absp128L _ => some .v128L
  | .enc128L => some .v128L
  | .encp128L _ => some .v128L
  | .dec128L => some .v128L
  | .decp128L _ => some .v128L
  | .final128L _ => some .v128L
  | .init256 => none
  | .abs256 => some .v256
  | .absp256 _ => some .v256
  | .enc256 => some .v256
  | .encp256 _ => some .v256
  | .dec256 => some .v256
  | .decp256 _ => some .v256
  | .final256 _ => some .v256

/-- R51, the column "legal in": whether a command is legal in a phase. -/
def LegalIn : Instr → Phase → Prop
  | .aesrnd, _ => True
  | .zeroize, _ => True
  | .verify, p => p = .done
  | .init128L, _ => True
  | .abs128L, p => p = .ad
  | .absp128L _, p => p = .ad
  | .enc128L, p => p = .ad ∨ p = .adPart ∨ p = .msg
  | .encp128L _, p => p = .ad ∨ p = .adPart ∨ p = .msg
  | .dec128L, p => p = .ad ∨ p = .adPart ∨ p = .msg
  | .decp128L _, p => p = .ad ∨ p = .adPart ∨ p = .msg
  | .final128L _, p => p = .ad ∨ p = .adPart ∨ p = .msg ∨ p = .msgPart
  | .init256, _ => True
  | .abs256, p => p = .ad
  | .absp256 _, p => p = .ad
  | .enc256, p => p = .ad ∨ p = .adPart ∨ p = .msg
  | .encp256 _, p => p = .ad ∨ p = .adPart ∨ p = .msg
  | .dec256, p => p = .ad ∨ p = .adPart ∨ p = .msg
  | .decp256 _, p => p = .ad ∨ p = .adPart ∨ p = .msg
  | .final256 _, p => p = .ad ∨ p = .adPart ∨ p = .msg ∨ p = .msgPart

/-- R51, the column "next phase": the phase a successful command leaves. -/
def nextPhase : Instr → Phase → Phase
  | .aesrnd, p => p
  | .zeroize, _ => .idle
  | .verify, _ => .done
  | .init128L, _ => .ad
  | .abs128L, _ => .ad
  | .absp128L _, _ => .adPart
  | .enc128L, _ => .msg
  | .encp128L _, _ => .msgPart
  | .dec128L, _ => .msg
  | .decp128L _, _ => .msgPart
  | .final128L _, _ => .done
  | .init256, _ => .ad
  | .abs256, _ => .ad
  | .absp256 _, _ => .adPart
  | .enc256, _ => .msg
  | .encp256 _, _ => .msgPart
  | .dec256, _ => .msg
  | .decp256 _, _ => .msgPart
  | .final256 _, _ => .done

/-- R328: the bytes a command adds to `ADCNT`. -/
def adAdded : Instr → Nat
  | .abs128L => 32
  | .absp128L n => n.toNat
  | .abs256 => 16
  | .absp256 n => n.toNat
  | _ => 0

/-- R328: the bytes a command adds to `MSGCNT`. -/
def msgAdded : Instr → Nat
  | .enc128L => 32
  | .encp128L n => n.toNat
  | .dec128L => 32
  | .decp128L n => n.toNat
  | .enc256 => 16
  | .encp256 n => n.toNat
  | .dec256 => 16
  | .decp256 n => n.toNat
  | _ => 0

/-- When `ABS` or `ABSP` of variant `v` adds `k` AD bytes without an error (R326–R328, R51). -/
def State.MayAbsorb (s : State) (v : Variant) (k : Nat) : Prop :=
  s.phase = .ad ∧ s.var = v ∧ s.adcnt.toNat + k < 2 ^ 61

/-- When a message command of variant `v` processes `k` bytes without an error (R326–R328, R51). -/
def State.MayProcess (s : State) (v : Variant) (k : Nat) : Prop :=
  (s.phase = .ad ∨ s.phase = .adPart ∨ s.phase = .msg) ∧ s.var = v ∧ s.msgcnt.toNat + k < 2 ^ 61

/-- When `FINAL` of variant `v` runs without an error (R326, R327, R51). -/
def State.MayFinish (s : State) (v : Variant) : Prop :=
  (s.phase = .ad ∨ s.phase = .adPart ∨ s.phase = .msg ∨ s.phase = .msgPart) ∧ s.var = v

/-- R321: the state a failing command leaves, every field but the three the rule names unchanged. -/
def State.Failed (s : State) (e : ErrCode) : State :=
  { s with lasterr := e, errcode := (match s.err with | true => s.errcode | false => e), err := true }

/-- Two states that agree in everything but the key and the state words: what a host must not be able to tell apart by reading
(R34, R81). -/
def State.SameButSecrets (s t : State) : Prop := t = { s with S := t.S, key := t.key }

/-- Two states that agree in everything but the bytes of `DIN` from `n` on. -/
def State.SameButDinFrom (n : Nat) (s t : State) : Prop :=
  t = { s with din := t.din } ∧ ∀ i, i < n → t.din.get i = s.din.get i

/-! ### Invariants -/

/-- R40, R41: both counters are at most `2^61 − 1`. -/
def State.CountersBounded (s : State) : Prop := s.adcnt.toNat < 2 ^ 61 ∧ s.msgcnt.toNat < 2 ^ 61

/-- R32, R37: in an AEGIS-256 session `S[6] = S[7] = 0^16` and `DOUT[16:32]` is zero. -/
def State.UnusedHalvesClear (s : State) : Prop :=
  s.var = .v256 → s.S.s6 = Block.zero ∧ s.S.s7 = Block.zero ∧ s.dout.hi = Block.zero

/-- R52: `ERRCODE` is 0 exactly while `ERR` is 0. -/
def State.ErrorFieldsAgree (s : State) : Prop := s.err = false ↔ s.errcode = .none

/-- R39, R48, R50: a tag size or a verdict stands only in phase `DONE`, and `TAGOUT` is zero beyond the tag. -/
def State.TagFieldsAgree (s : State) : Prop :=
  (s.tlen ≠ .t0 → s.phase = .done) ∧ (s.auth = true → s.phase = .done) ∧
    ∀ i, tagBytes s.tlen ≤ i → s.tagout.get i = 0

/-- R51: what the phase says of the byte counts: only the last AD block and the last message block may be partial. -/
def State.BlocksAccounted (s : State) : Prop :=
  match s.phase with
  | .idle => s.adcnt = 0 ∧ s.msgcnt = 0
  | .ad => s.adcnt.toNat % rate s.var = 0 ∧ s.msgcnt = 0
  | .adPart => s.adcnt.toNat % rate s.var ≠ 0 ∧ s.msgcnt = 0
  | .msg => s.msgcnt.toNat % rate s.var = 0 ∧ 0 < s.msgcnt.toNat
  | .msgPart => s.msgcnt.toNat % rate s.var ≠ 0
  | .done => True

/-- R51, R362: in phase `IDLE` there is no session: state words, counters, variant, tag and verdict are as after reset. -/
def State.IdleClear (s : State) : Prop :=
  s.phase = .idle → s.S = Lanes.zero ∧ s.adcnt = 0 ∧ s.msgcnt = 0 ∧ s.var = .v128L ∧ s.tlen = .t0 ∧ s.auth = false ∧
    s.tagout = Data.zero

end Sys2Proof.Machine
end

