-- ==== Sys2Proof/Certificates/Slice0/Obligations.lean ====
section
/-! DEFINITION. The statements about AEGIS-CORE, from the numbered rules of spec/. Each docstring names the rule or section it
formalises, and says where the spec marks the formula as its own inference ("[derived: …]") or as general knowledge; such a
statement has basis 'derived'. A statement about a state holds for every state, with a premise where the rule has one. -/

open Sys2Proof Sys2Proof.Machine

/-! ### The command word -/

/-- 30_encoding.md sections 1 and 2: no bit of a command's word is dropped by the decoder. -/
def Obligations.DecodeOfEncode : Prop :=
  ∀ i : Instr, i.wellFormed = true → decode (encode i) = .ok i

/-- 30_encoding.md sections 1 and 2: a word that decodes is the word of its command, and the command is well formed. -/
def Obligations.EncodeOfDecode : Prop :=
  ∀ (w : Word32) (i : Instr), decode w = .ok i → encode i = w ∧ i.wellFormed = true

/-- R107. -/
def Obligations.OpcodeMapDecides : Prop :=
  (∀ (w : Word32) (r : OpcodeRow), r ∈ opcodeMap →
    ((∃ i, decode w = .ok i ∧ i.mnemonic = r.mnemonic) ↔
      (w &&& r.mask = r.matchBits ∧
        match r.constraint with
        | .unconstrained => True
        | .cntRange lo hi => lo ≤ w.toNat / 65536 % 32 ∧ w.toNat / 65536 % 32 ≤ hi
        | .tszNot3 => w.toNat / 512 % 4 ≠ 3))) ∧
  (∀ (w : Word32) (i : Instr), decode w = .ok i → ∃ r ∈ opcodeMap, r.mnemonic = i.mnemonic) ∧
  opcodeMap.length = 19

/-- R107, R111: words written out bit by bit from the spec's encodings, bit 31 first. -/
def Obligations.WrittenWordsDecode : Prop :=
  decode 0b00000000000000000000000000000001#32 = .ok .aesrnd ∧
  decode 0b00000000000000000000000000000010#32 = .ok .zeroize ∧
  decode 0b00000000000000000000000000000011#32 = .ok .verify ∧
  decode 0b00000000000000000000000000010000#32 = .ok .init128L ∧
  decode 0b00000000000010000000000000010010#32 = .ok (.absp128L 8) ∧
  decode 0b00000000000111110000000000010100#32 = .ok (.encp128L 31) ∧
  decode 0b00000000000000000000000100010001#32 = .ok .abs256 ∧
  decode 0b00000000000011100000000100010110#32 = .ok (.decp256 14) ∧
  decode 0b00000000000000000000010100010111#32 = .ok (.final256 .t32)

/-- R323. -/
def Obligations.IllegalOpcodeFails : Prop :=
  (∀ w : Word32, decode w = .error .illegalOp ↔
    w.toNat % 256 ∉ [0x01, 0x02, 0x03, 0x10, 0x11, 0x12, 0x13, 0x14, 0x15, 0x16, 0x17]) ∧
  (∀ (w : Word32) (s : State),
    w.toNat % 256 ∉ [0x01, 0x02, 0x03, 0x10, 0x11, 0x12, 0x13, 0x14, 0x15, 0x16, 0x17] →
      execute w s = .next (s.Failed .illegalOp)) ∧
  ((List.range 256).filter
    fun c => c ∉ [0x01, 0x02, 0x03, 0x10, 0x11, 0x12, 0x13, 0x14, 0x15, 0x16, 0x17]).length = 245

/-- R324. -/
def Obligations.ReservedFieldFails : Prop :=
  ∀ w : Word32,
    (decode w = .error .reservedField ↔
      w.toNat % 256 ∈ [0x01, 0x02, 0x03, 0x10, 0x11, 0x12, 0x13, 0x14, 0x15, 0x16, 0x17] ∧
        (w &&& 0xFFE0F800#32 ≠ 0 ∨
          (w.toNat % 256 ∈ [0x01, 0x02, 0x03] ∧
            (w.toNat / 256 % 2 ≠ 0 ∨ w.toNat / 512 % 4 ≠ 0 ∨ w.toNat / 65536 % 32 ≠ 0)) ∨
          (w.toNat % 256 ∈ [0x10, 0x11, 0x12, 0x13, 0x14, 0x15, 0x16] ∧ w.toNat / 512 % 4 ≠ 0) ∨
          (w.toNat % 256 ∈ [0x10, 0x11, 0x13, 0x15, 0x17] ∧ w.toNat / 65536 % 32 ≠ 0))) ∧
    ∀ s : State, decode w = .error .reservedField → execute w s = .next (s.Failed .reservedField)

/-- R325: two errors of decoding, which do not depend on the state; the checks of the reserved and unused fields come first
(30_encoding.md section 2). -/
def Obligations.BadFieldValueFails : Prop :=
  ∀ w : Word32,
    (decode w = .error .badTagsize ↔
      w.toNat % 256 = 0x17 ∧ w &&& 0xFFE0F800#32 = 0 ∧ w.toNat / 65536 % 32 = 0 ∧ w.toNat / 512 % 4 = 3) ∧
    (decode w = .error .badCount ↔
      w.toNat % 256 ∈ [0x12, 0x14, 0x16] ∧ w &&& 0xFFE0F800#32 = 0 ∧ w.toNat / 512 % 4 = 0 ∧
        (w.toNat / 65536 % 32 = 0 ∨
          w.toNat / 65536 % 32 ≥ if w.toNat / 256 % 2 = 0 then 32 else 16)) ∧
    ∀ (s : State) (e : ErrCode), e = .badTagsize ∨ e = .badCount → decode w = .error e →
      execute w s = .next (s.Failed e)

/-- 30_encoding.md section 3: an assembled word never fails decoding, and the assembler refuses every other operand. -/
def Obligations.AssembledWordsDecode : Prop :=
  (∀ (op : Op) (v : Option Variant) (a : Option Nat) (w : Word32),
    assemble op v a = some w → ∃ i, parseCommand op v a = some i ∧ decode w = .ok i) ∧
  (∀ (v : Variant) (t : Nat), assemble .final (some v) (some t) ≠ none ↔ t = 0 ∨ t = 16 ∨ t = 32) ∧
  (∀ (op : Op) (v : Variant) (n : Nat), op = .absp ∨ op = .encp ∨ op = .decp →
    (assemble op (some v) (some n) ≠ none ↔ 1 ≤ n ∧ n ≤ (match v with | .v128L => 31 | .v256 => 15))) ∧
  assemble .absp (some .v128L) (some 8) = some 0x00080012 ∧
  assemble .final (some .v256) (some 32) = some 0x00000517 ∧
  assemble .decp (some .v256) (some 14) = some 0x000E0116

/-! ### Steps and errors -/

/-- When the pending word decodes to `i`, the step is `exec` of `i`, and then the latch is cleared. That the core has its turn where no
event is left is the model's choice (notes/assumptions/2.md); with the core's turn next it is the core step of
70_reset_and_hazards.md section 2; what `withFetchWord` stands for is the model's choice (notes/assumptions/16.md). -/
def Obligations.StepRunsPendingCommand : Prop :=
  ∀ (s : State) (w : Word32) (i : Instr), decode w = .ok i →
    (s.pending = some w → s.inputs = [] →
      step s = match exec i s with
        | .next t => .next { t with pending := none }
        | .fault f => .fault f
        | .refused r => .refused r) ∧
    (∀ rest, s.pending = some w → s.inputs = .core :: rest →
      step s = match exec i { s with inputs := rest } with
        | .next t => .next { t with pending := none }
        | .fault f => .fault f
        | .refused r => .refused r) ∧
    step (s.withFetchWord 32 w.toNat) = match exec i { s with pending := some w } with
      | .next t => .next { t with pending := none }
      | .fault f => .fault f
      | .refused r => .refused r

/-- 60_exceptions.md section 1 (Execute): a pending word that does not decode completes with its error; a core turn with nothing
pending changes nothing (the model's reading, notes/assumptions/3.md). -/
def Obligations.StepReportsUndecodableWord : Prop :=
  ∀ (s : State) (rest : List Input), s.inputs = .core :: rest →
    (∀ (w : Word32) (e : ErrCode), s.pending = some w → decode w = .error e →
      step s = .next { State.Failed { s with inputs := rest } e with pending := none }) ∧
    (s.pending = none → step s = .next { s with inputs := rest })

/-- R321: a command that ends with an error, of decoding or of a state check, changes the three status fields and nothing else; its
completion clears the latch as any other does. -/
def Obligations.ErrorChangesOnlyStatus : Prop :=
  ∀ (w : Word32) (s t : State), execute w s = .next t → t.lasterr ≠ .none →
    t = s.Failed t.lasterr ∧
    (s.pending = some w → coreStep s = .next { s.Failed t.lasterr with pending := none })

/-- R326. -/
def Obligations.VariantMismatchFails : Prop :=
  (∀ (i : Instr) (v : Variant) (s : State), sessionVariant i = some v →
    (s.phase ≠ .idle → v ≠ s.var → exec i s = .next (s.Failed .variant)) ∧
    (s.phase = .idle → exec i s = .next (s.Failed .sequence))) ∧
  (∀ (i : Instr) (s t : State), exec i s = .next t → t.lasterr = .variant →
    ∃ v, sessionVariant i = some v ∧ s.phase ≠ .idle ∧ v ≠ s.var)

/-- R327, after the check `VARIANT`, which comes first (60_exceptions.md section 3). -/
def Obligations.OutOfPhaseFails : Prop :=
  (∀ (i : Instr) (s : State), ¬ LegalIn i s.phase →
    (s.phase = .idle ∨ ∀ v, sessionVariant i = some v → v = s.var) →
      exec i s = .next (s.Failed .sequence)) ∧
  (∀ (i : Instr) (s t : State), LegalIn i s.phase → exec i s = .next t → t.lasterr ≠ .sequence)

/-- R328, with its example. -/
def Obligations.LengthLimitFails : Prop :=
  (∀ (i : Instr) (s : State), LegalIn i s.phase → sessionVariant i = some s.var →
    ((0 < adAdded i ∧ s.adcnt.toNat + adAdded i ≥ 2 ^ 61) ∨
      (0 < msgAdded i ∧ s.msgcnt.toNat + msgAdded i ≥ 2 ^ 61)) →
    exec i s = .next (s.Failed .length)) ∧
  (∀ (i : Instr) (s t : State), exec i s = .next t → t.lasterr = .length → i.wellFormed = true →
    (0 < adAdded i ∧ s.adcnt.toNat + adAdded i ≥ 2 ^ 61) ∨
      (0 < msgAdded i ∧ s.msgcnt.toNat + msgAdded i ≥ 2 ^ 61)) ∧
  (∀ s : State, s.phase = .ad → s.var = .v128L → s.adcnt = 0x1FFFFFFFFFFFFFE0#64 →
    exec .abs128L s = .next (s.Failed .length) ∧
    ∃ t, exec (.absp128L 31) s = .next t ∧ t.lasterr = .none ∧ t.adcnt.toNat = 2 ^ 61 - 1)

/-- 10_state.md section 5, the tables of R51: which phases a successful command starts from and which it leaves. -/
def Obligations.PhaseTable : Prop :=
  ∀ (i : Instr) (s t : State), exec i s = .next t → t.lasterr = .none →
    LegalIn i s.phase ∧ t.phase = nextPhase i s.phase

/-- 10_state.md section 5, R57 ("[derived: from rules R46–R53 and the command rules …]"): the status fields each command writes;
every other one is unchanged. A command succeeds when its word decodes and no state check fails. -/
def Obligations.StatusFieldTable : Prop :=
  (∀ (i : Instr) (s : State), stateCheck i s = .none →
    ∃ t, exec i s = .next t ∧ t.lasterr = .none ∧
      match i with
      | .aesrnd => t.err = s.err ∧ t.errcode = s.errcode ∧ t.auth = s.auth ∧ t.var = s.var ∧ t.phase = s.phase ∧
          t.tlen = s.tlen
      | .zeroize => t.err = false ∧ t.errcode = .none ∧ t.auth = false ∧ t.var = .v128L ∧ t.phase = .idle ∧
          t.tlen = .t0
      | .init128L => t.err = s.err ∧ t.errcode = s.errcode ∧ t.auth = false ∧ t.var = .v128L ∧ t.phase = .ad ∧
          t.tlen = .t0
      | .init256 => t.err = s.err ∧ t.errcode = s.errcode ∧ t.auth = false ∧ t.var = .v256 ∧ t.phase = .ad ∧
          t.tlen = .t0
      | .verify => t.err = s.err ∧ t.errcode = s.errcode ∧
          (t.auth = true ↔ ∀ j, j < tagBytes s.tlen → s.tagin.get j = s.tagout.get j) ∧ t.var = s.var ∧
          t.phase = s.phase ∧ t.tlen = s.tlen
      | .final128L c => t.err = s.err ∧ t.errcode = s.errcode ∧ t.auth = s.auth ∧ t.var = s.var ∧ t.phase = .done ∧
          t.tlen = c
      | .final256 c => t.err = s.err ∧ t.errcode = s.errcode ∧ t.auth = s.auth ∧ t.var = s.var ∧ t.phase = .done ∧
          t.tlen = c
      | _ => t.err = s.err ∧ t.errcode = s.errcode ∧ t.auth = s.auth ∧ t.var = s.var ∧
          t.phase = nextPhase i s.phase ∧ t.tlen = s.tlen) ∧
  (∀ (w : Word32) (e : ErrCode) (s : State), e ≠ .none →
    (decode w = .error e ∨ ∃ i, decode w = .ok i ∧ stateCheck i s = e) →
    ∃ t, execute w s = .next t ∧ t.err = true ∧ t.errcode = (if s.err = true then s.errcode else e) ∧
      t.auth = s.auth ∧ t.var = s.var ∧ t.phase = s.phase ∧ t.tlen = s.tlen ∧ t.lasterr = e)

/-- The frame of every command (10_state.md sections 3 to 6): no command writes the latch or what the host has read, and only
`ZEROIZE` writes `KEY`, `NONCE`, `DIN`, `TAGIN` or `BWE`; the registers the family does not write are unchanged. -/
def Obligations.CommandFrame : Prop :=
  ∀ (i : Instr) (s t : State), exec i s = .next t →
    t.pending = s.pending ∧ t.inputs = s.inputs ∧ t.returned = s.returned ∧ t.draws = s.draws ∧
    (i ≠ .zeroize →
      t.key = s.key ∧ t.nonce = s.nonce ∧ t.din = s.din ∧ t.tagin = s.tagin ∧ t.bwe = s.bwe ∧
      match i with
      | .aesrnd => t.S = s.S ∧ t.tagout = s.tagout ∧ t.adcnt = s.adcnt ∧ t.msgcnt = s.msgcnt
      | .verify => t.S = s.S ∧ t.tagout = s.tagout ∧ t.adcnt = s.adcnt ∧ t.msgcnt = s.msgcnt
      | .zeroize => True
      | .init128L => True
      | .init256 => True
      | .abs128L => t.dout = s.dout ∧ t.tagout = s.tagout ∧ t.msgcnt = s.msgcnt
      | .absp128L _ => t.dout = s.dout ∧ t.tagout = s.tagout ∧ t.msgcnt = s.msgcnt
      | .abs256 => t.dout = s.dout ∧ t.tagout = s.tagout ∧ t.msgcnt = s.msgcnt
      | .absp256 _ => t.dout = s.dout ∧ t.tagout = s.tagout ∧ t.msgcnt = s.msgcnt
      | .final128L _ => t.dout = s.dout ∧ t.adcnt = s.adcnt ∧ t.msgcnt = s.msgcnt
      | .final256 _ => t.dout = s.dout ∧ t.adcnt = s.adcnt ∧ t.msgcnt = s.msgcnt
      | _ => t.tagout = s.tagout ∧ t.adcnt = s.adcnt)

/-! ### What each command does. Each conclusion names the whole next state: what is not named in it is unchanged. -/

/-- R160: the result, legal in every phase; the word, and the only error, `RESERVED_FIELD`; the corner case and the example. -/
def Obligations.AesrndResult : Prop :=
  (∀ s : State, exec .aesrnd s =
    .next { s with dout := ⟨aesRound s.din.lo s.din.hi, Block.zero⟩, lasterr := .none }) ∧
  decode 0x00000001 = .ok .aesrnd ∧
  (∀ (w : Word32) (s : State), w.toNat % 256 = 0x01 → w.toNat / 256 ≠ 0 →
    execute w s = .next (s.Failed .reservedField)) ∧
  (∀ j, j < 16 → (aesRound Block.zero Block.zero).get j = 0x63) ∧
  aesRound (Block.ofFn fun i => BitVec.ofNat 8 i) (Block.ofFn fun i => BitVec.ofNat 8 (0x10 + i)) =
    ⟨0x7a, 0x7b, 0x4e, 0x56, 0x38, 0x78, 0x25, 0x46, 0xa8, 0xc0, 0x47, 0x7a, 0x3b, 0x81, 0x3f, 0x43⟩

/-- 44_verify_control.md, `ZEROIZE`: after its completion the machine is as after reset. That the model's own fields are kept is the
model's choice (notes/assumptions/14.md). A failing `ZEROIZE` clears nothing; no other command clears what only `ZEROIZE` clears. -/
def Obligations.ZeroizeResult : Prop :=
  (∀ s : State,
    exec .zeroize s = .next { State.reset with
      pending := s.pending, inputs := s.inputs, returned := s.returned, draws := s.draws } ∧
    (s.pending = some 0x00000002 →
      coreStep s = .next { State.reset with inputs := s.inputs, returned := s.returned, draws := s.draws })) ∧
  (∀ (w : Word32) (s : State), w.toNat % 256 = 0x02 → w.toNat / 256 ≠ 0 →
    execute w s = .next (s.Failed .reservedField)) ∧
  (∀ (w : Word32) (s t : State), w ≠ 0x00000002 → execute w s = .next t →
    t.key = s.key ∧ t.nonce = s.nonce ∧ t.din = s.din ∧ t.tagin = s.tagin ∧ t.bwe = s.bwe ∧
      (s.err = true → t.err = true ∧ t.errcode = s.errcode))

/-- 44_verify_control.md, `VERIFY`: the verdict is whether the first `TagBytes(TLEN)` bytes agree. -/
def Obligations.VerifyResult : Prop :=
  ∀ s : State, s.phase = .done →
    ((∀ i, i < tagBytes s.tlen → s.tagin.get i = s.tagout.get i) →
      exec .verify s = .next { s with auth := true, lasterr := .none }) ∧
    ((¬ ∀ i, i < tagBytes s.tlen → s.tagin.get i = s.tagout.get i) →
      exec .verify s = .next { s with auth := false, dout := Data.zero, lasterr := .none })

/-- 42_aegis128l.md, `INIT.128L` with the constants (41_state_update.md section 2, "[from general knowledge, not in source]") and the
initial state written out: legal in every phase. -/
def Obligations.Init128LResult : Prop :=
  C0 = ⟨0x00, 0x01, 0x01, 0x02, 0x03, 0x05, 0x08, 0x0d, 0x15, 0x22, 0x37, 0x59, 0x90, 0xe9, 0x79, 0x62⟩ ∧
  C1 = ⟨0xdb, 0x3d, 0x18, 0x55, 0x6d, 0xc2, 0x2f, 0xf1, 0x20, 0x11, 0x31, 0x42, 0x73, 0xb5, 0x28, 0xdd⟩ ∧
  ∀ s : State, exec .init128L s = .next { s with
    S := Nat.iterate (fun T => update128L T s.nonce.lo s.key.lo) 10
      ⟨s.key.lo.xor s.nonce.lo, C1, C0, C1, s.key.lo.xor s.nonce.lo, s.key.lo.xor C0, s.key.lo.xor C1, s.key.lo.xor C0⟩
    adcnt := 0, msgcnt := 0, var := .v128L, phase := .ad, tlen := .t0, auth := false, dout := Data.zero,
    tagout := Data.zero, lasterr := .none }

/-- 43_aegis256.md, `INIT.256` with the constants (41_state_update.md section 2, "[from general knowledge, not in source]") and the
initial state written out: legal in every phase. -/
def Obligations.Init256Result : Prop :=
  C0 = ⟨0x00, 0x01, 0x01, 0x02, 0x03, 0x05, 0x08, 0x0d, 0x15, 0x22, 0x37, 0x59, 0x90, 0xe9, 0x79, 0x62⟩ ∧
  C1 = ⟨0xdb, 0x3d, 0x18, 0x55, 0x6d, 0xc2, 0x2f, 0xf1, 0x20, 0x11, 0x31, 0x42, 0x73, 0xb5, 0x28, 0xdd⟩ ∧
  ∀ s : State, exec .init256 s = .next { s with
    S := Nat.iterate (fun T => update256 (update256 (update256 (update256 T s.key.lo) s.key.hi)
        (s.key.lo.xor s.nonce.lo)) (s.key.hi.xor s.nonce.hi)) 4
      ⟨s.key.lo.xor s.nonce.lo, s.key.hi.xor s.nonce.hi, C1, C0, s.key.lo.xor C0, s.key.hi.xor C1, Block.zero, Block.zero⟩
    adcnt := 0, msgcnt := 0, var := .v256, phase := .ad, tlen := .t0, auth := false, dout := Data.zero,
    tagout := Data.zero, lasterr := .none }

/-- 42_aegis128l.md, `ABS.128L` and `ABSP.128L n`: the bytes of a partial block from `n` on are zero. -/
def Obligations.Absorb128LResult : Prop :=
  ∀ s : State,
    (s.MayAbsorb .v128L 32 → exec .abs128L s = .next { s with
      S := update128L s.S s.din.lo s.din.hi, adcnt := s.adcnt + 32, lasterr := .none }) ∧
    (∀ n : BitVec 5, s.MayAbsorb .v128L n.toNat →
      ∃ B : Data, (∀ j, j < 32 → B.get j = if j < n.toNat then s.din.get j else 0) ∧
        exec (.absp128L n) s = .next { s with
          S := update128L s.S B.lo B.hi, adcnt := s.adcnt + BitVec.ofNat 64 n.toNat, phase := .adPart,
          lasterr := .none })

/-- 43_aegis256.md, `ABS.256` and `ABSP.256 n`. -/
def Obligations.Absorb256Result : Prop :=
  ∀ s : State,
    (s.MayAbsorb .v256 16 → exec .abs256 s = .next { s with
      S := update256 s.S s.din.lo, adcnt := s.adcnt + 16, lasterr := .none }) ∧
    (∀ n : BitVec 5, s.MayAbsorb .v256 n.toNat →
      ∃ B : Block, (∀ j, j < 16 → B.get j = if j < n.toNat then s.din.get j else 0) ∧
        exec (.absp256 n) s = .next { s with
          S := update256 s.S B, adcnt := s.adcnt + BitVec.ofNat 64 n.toNat, phase := .adPart, lasterr := .none })

/-- 42_aegis128l.md, `ENC.128L` and `ENCP.128L n`: the plaintext is fed back, and `DOUT` is zero from `n` on. -/
def Obligations.Encrypt128LResult : Prop :=
  ∀ s : State,
    (s.MayProcess .v128L 32 →
      ∃ C : Data, (∀ j, j < 32 → C.get j = s.din.get j ^^^ (z128 s.S).get j) ∧
        exec .enc128L s = .next { s with
          dout := C, S := update128L s.S s.din.lo s.din.hi, msgcnt := s.msgcnt + 32, phase := .msg,
          lasterr := .none }) ∧
    (∀ n : BitVec 5, s.MayProcess .v128L n.toNat →
      ∃ P C : Data, (∀ j, j < 32 → P.get j = if j < n.toNat then s.din.get j else 0) ∧
        (∀ j, j < 32 → C.get j = if j < n.toNat then s.din.get j ^^^ (z128 s.S).get j else 0) ∧
        exec (.encp128L n) s = .next { s with
          dout := C, S := update128L s.S P.lo P.hi, msgcnt := s.msgcnt + BitVec.ofNat 64 n.toNat, phase := .msgPart,
          lasterr := .none })

/-- 43_aegis256.md, `ENC.256` and `ENCP.256 n`, for the counts 1…15 the encoding admits. -/
def Obligations.Encrypt256Result : Prop :=
  ∀ s : State,
    (s.MayProcess .v256 16 →
      ∃ C : Data, (∀ j, j < 32 → C.get j = if j < 16 then s.din.get j ^^^ (z256 s.S).get j else 0) ∧
        exec .enc256 s = .next { s with
          dout := C, S := update256 s.S s.din.lo, msgcnt := s.msgcnt + 16, phase := .msg, lasterr := .none }) ∧
    (∀ n : BitVec 5, n.toNat ≤ 15 → s.MayProcess .v256 n.toNat →
      ∃ (P : Block) (C : Data), (∀ j, j < 16 → P.get j = if j < n.toNat then s.din.get j else 0) ∧
        (∀ j, j < 32 → C.get j = if j < n.toNat then s.din.get j ^^^ (z256 s.S).get j else 0) ∧
        exec (.encp256 n) s = .next { s with
          dout := C, S := update256 s.S P, msgcnt := s.msgcnt + BitVec.ofNat 64 n.toNat, phase := .msgPart,
          lasterr := .none })

/-- 42_aegis128l.md, `DEC.128L` and `DECP.128L n`: the recovered plaintext is in `DOUT` and is fed back. -/
def Obligations.Decrypt128LResult : Prop :=
  ∀ s : State,
    (s.MayProcess .v128L 32 →
      ∃ P : Data, (∀ j, j < 32 → P.get j = s.din.get j ^^^ (z128 s.S).get j) ∧
        exec .dec128L s = .next { s with
          dout := P, S := update128L s.S P.lo P.hi, msgcnt := s.msgcnt + 32, phase := .msg, lasterr := .none }) ∧
    (∀ n : BitVec 5, s.MayProcess .v128L n.toNat →
      ∃ P : Data, (∀ j, j < 32 → P.get j = if j < n.toNat then s.din.get j ^^^ (z128 s.S).get j else 0) ∧
        exec (.decp128L n) s = .next { s with
          dout := P, S := update128L s.S P.lo P.hi, msgcnt := s.msgcnt + BitVec.ofNat 64 n.toNat, phase := .msgPart,
          lasterr := .none })

/-- 43_aegis256.md, `DEC.256` and `DECP.256 n`, for the counts 1…15 the encoding admits. -/
def Obligations.Decrypt256Result : Prop :=
  ∀ s : State,
    (s.MayProcess .v256 16 →
      ∃ P : Block, (∀ j, j < 16 → P.get j = s.din.get j ^^^ (z256 s.S).get j) ∧
        exec .dec256 s = .next { s with
          dout := ⟨P, Block.zero⟩, S := update256 s.S P, msgcnt := s.msgcnt + 16, phase := .msg, lasterr := .none }) ∧
    (∀ n : BitVec 5, n.toNat ≤ 15 → s.MayProcess .v256 n.toNat →
      ∃ P : Block, (∀ j, j < 16 → P.get j = if j < n.toNat then s.din.get j ^^^ (z256 s.S).get j else 0) ∧
        exec (.decp256 n) s = .next { s with
          dout := ⟨P, Block.zero⟩, S := update256 s.S P, msgcnt := s.msgcnt + BitVec.ofNat 64 n.toNat,
          phase := .msgPart, lasterr := .none })

/-- 42_aegis128l.md, `FINAL.128L t` with the finalized state and the tag's bytes written out. -/
def Obligations.Final128LResult : Prop :=
  ∀ (s : State) (c : TagSize), s.MayFinish .v128L →
    ∃ (F : Lanes) (T : Data),
      F = Nat.iterate (fun U => update128L U (s.S.s2.xor (lenBlock s.adcnt s.msgcnt))
        (s.S.s2.xor (lenBlock s.adcnt s.msgcnt))) 7 s.S ∧
      (∀ j, j < 16 →
        T.get j = (match c with
          | .t0 => 0
          | .t16 => F.s0.get j ^^^ F.s1.get j ^^^ F.s2.get j ^^^ F.s3.get j ^^^ F.s4.get j ^^^ F.s5.get j ^^^ F.s6.get j
          | .t32 => F.s0.get j ^^^ F.s1.get j ^^^ F.s2.get j ^^^ F.s3.get j) ∧
        T.get (j + 16) = (match c with
          | .t0 => 0
          | .t16 => 0
          | .t32 => F.s4.get j ^^^ F.s5.get j ^^^ F.s6.get j ^^^ F.s7.get j)) ∧
      exec (.final128L c) s = .next { s with S := F, tagout := T, tlen := c, phase := .done, lasterr := .none }

/-- 43_aegis256.md, `FINAL.256 t` with the finalized state and the tag's bytes written out. -/
def Obligations.Final256Result : Prop :=
  ∀ (s : State) (c : TagSize), s.MayFinish .v256 →
    ∃ (F : Lanes) (T : Data),
      F = Nat.iterate (fun U => update256 U (s.S.s3.xor (lenBlock s.adcnt s.msgcnt))) 7 s.S ∧
      (∀ j, j < 16 →
        T.get j = (match c with
          | .t0 => 0
          | .t16 => F.s0.get j ^^^ F.s1.get j ^^^ F.s2.get j ^^^ F.s3.get j ^^^ F.s4.get j ^^^ F.s5.get j
          | .t32 => F.s0.get j ^^^ F.s1.get j ^^^ F.s2.get j) ∧
        T.get (j + 16) = (match c with
          | .t0 => 0
          | .t16 => 0
          | .t32 => F.s3.get j ^^^ F.s4.get j ^^^ F.s5.get j)) ∧
      exec (.final256 c) s = .next { s with S := F, tagout := T, tlen := c, phase := .done, lasterr := .none }

/-! ### Invariants: every step keeps them, from every state that has them -/

/-- 10_state.md section 4: the counters never exceed `2^61 − 1`. -/
def Obligations.CountersStayBounded : Prop :=
  ∀ s t : State, s.CountersBounded → step s = .next t → t.CountersBounded

/-- 10_state.md sections 2 and 3: in an AEGIS-256 session `S[6]`, `S[7]` and `DOUT[16:32]` stay zero. -/
def Obligations.UnusedHalvesStayClear : Prop :=
  ∀ s t : State, s.UnusedHalvesClear → step s = .next t → t.UnusedHalvesClear

/-- 10_state.md section 5: `ERRCODE` is 0 exactly while `ERR` is 0. -/
def Obligations.ErrorFieldsStayAgreed : Prop :=
  ∀ s t : State, s.ErrorFieldsAgree → step s = .next t → t.ErrorFieldsAgree

/-- 10_state.md sections 3 and 5: a tag size or a verdict stands only in phase `DONE`; `TAGOUT` is zero beyond the tag. -/
def Obligations.TagFieldsStayAgreed : Prop :=
  ∀ s t : State, s.TagFieldsAgree → step s = .next t → t.TagFieldsAgree

/-- 10_state.md section 5 and 92_eei_decisions.md D10: only the last AD block and the last message block may be partial, and the
phase says so of the byte counts. -/
def Obligations.BlocksStayAccounted : Prop :=
  ∀ s t : State, s.BlocksAccounted → step s = .next t → t.BlocksAccounted

/-- 70_reset_and_hazards.md section 1: while `PHASE = IDLE` there is no session. -/
def Obligations.IdleStaysClear : Prop :=
  ∀ s t : State, s.IdleClear → step s = .next t → t.IdleClear

/-- The six invariants hold right after reset. -/
def Obligations.InvariantsAtReset : Prop :=
  State.reset.CountersBounded ∧ State.reset.UnusedHalvesClear ∧ State.reset.ErrorFieldsAgree ∧
    State.reset.TagFieldsAgree ∧ State.reset.BlocksAccounted ∧ State.reset.IdleClear

/-! ### The register window -/

/-- 20_memory.md section 3 and 60_exceptions.md section 2: a refused access faults as `BusRefused(offset, size)`; every other one is
performed. -/
def Obligations.RefusedAccessFaults : Prop :=
  ∀ (s : State) (rest : List Input) (off size : Nat) (v : Word32),
    (¬ (size = 4 ∧ off % 4 = 0 ∧ off < 0x200) →
      (s.inputs = .read off size :: rest → step s = .fault (.busRefused off size)) ∧
      (s.inputs = .write off size v :: rest → step s = .fault (.busRefused off size))) ∧
    (size = 4 ∧ off % 4 = 0 ∧ off < 0x200 →
      (s.inputs = .read off size :: rest →
        step s = .next (State.afterRead { s with inputs := rest } off)) ∧
      (s.inputs = .write off size v :: rest →
        step s = .next (State.hostWrite { s with inputs := rest } off v)))

/-- 20_memory.md section 3: the value of an admitted read, and that it changes nothing of the core. The value of a read while busy
is the model's free value (notes/assumptions/5.md). -/
def Obligations.HostReadValues : Prop :=
  ∀ s : State,
    s.hostRead 0x000 = 0xAE610701 ∧ s.hostRead 0x008 = statusWord s ∧
    (s.pending = none →
      s.hostRead 0x004 = 0 ∧ s.hostRead 0x00C = 0 ∧
      s.hostRead 0x010 = s.adcnt.extractLsb' 0 32 ∧ s.hostRead 0x014 = s.adcnt.extractLsb' 32 32 ∧
      s.hostRead 0x018 = s.msgcnt.extractLsb' 0 32 ∧ s.hostRead 0x01C = s.msgcnt.extractLsb' 32 32 ∧
      (∀ k, k < 8 → s.hostRead (0x100 + 4 * k) = 0 ∧ s.hostRead (0x120 + 4 * k) = s.nonce.word k ∧
        s.hostRead (0x140 + 4 * k) = s.din.word k ∧ s.hostRead (0x160 + 4 * k) = s.dout.word k ∧
        s.hostRead (0x180 + 4 * k) = s.tagin.word k ∧ s.hostRead (0x1A0 + 4 * k) = s.tagout.word k) ∧
      (∀ off, off % 4 = 0 → 0x020 ≤ off ∧ off < 0x100 ∨ 0x1C0 ≤ off ∧ off < 0x200 → s.hostRead off = 0)) ∧
    (∀ w off, s.pending = some w → off ≠ 0x000 → off ≠ 0x008 → s.hostRead off = Config.busyRead s.draws) ∧
    (∀ off, s.afterRead off = { s with
      returned := s.hostRead off :: s.returned
      draws := if s.pending ≠ none ∧ off ≠ 0x000 ∧ off ≠ 0x008 then s.draws + 1 else s.draws })

/-- R72: the byte order of a register word. -/
def Obligations.WordByteOrder : Prop :=
  ∀ (d : Data) (k i : Nat), k < 8 → i < 4 → (d.word k).toNat / 256 ^ i % 256 = (d.get (4 * k + i)).toNat

/-- R77: the effect of an admitted write. -/
def Obligations.HostWriteEffect : Prop :=
  ∀ (s : State) (v : Word32),
    (∀ w off, s.pending = some w → s.hostWrite off v = { s with bwe := true }) ∧
    (s.pending = none →
      s.hostWrite 0x004 v = { s with pending := some v } ∧
      s.hostWrite 0x008 v = { s with
        err := s.err && !v.getLsbD 2
        errcode := if v.getLsbD 2 then .none else s.errcode
        bwe := s.bwe && !v.getLsbD 3 } ∧
      (∀ k, k < 8 →
        (∃ d : Data,
          (∀ j, j < 32 → d.get j = if j / 4 = k then BitVec.ofNat 8 (v.toNat / 256 ^ (j % 4)) else s.key.get j) ∧
            s.hostWrite (0x100 + 4 * k) v = { s with key := d }) ∧
        (∃ d : Data,
          (∀ j, j < 32 → d.get j = if j / 4 = k then BitVec.ofNat 8 (v.toNat / 256 ^ (j % 4)) else s.nonce.get j) ∧
            s.hostWrite (0x120 + 4 * k) v = { s with nonce := d }) ∧
        (∃ d : Data,
          (∀ j, j < 32 → d.get j = if j / 4 = k then BitVec.ofNat 8 (v.toNat / 256 ^ (j % 4)) else s.din.get j) ∧
            s.hostWrite (0x140 + 4 * k) v = { s with din := d }) ∧
        s.hostWrite (0x160 + 4 * k) v = s ∧
        (∃ d : Data,
          (∀ j, j < 32 → d.get j = if j / 4 = k then BitVec.ofNat 8 (v.toNat / 256 ^ (j % 4)) else s.tagin.get j) ∧
            s.hostWrite (0x180 + 4 * k) v = { s with tagin := d }) ∧
        s.hostWrite (0x1A0 + 4 * k) v = s) ∧
      (∀ off, off % 4 = 0 →
        off = 0x000 ∨ 0x00C ≤ off ∧ off < 0x100 ∨ 0x1C0 ≤ off ∧ off < 0x200 → s.hostWrite off v = s))

/-- 20_memory.md section 3: what the host writes to `NONCE`, `DIN` and `TAGIN` it reads back, whole words; `KEY` reads 0. -/
def Obligations.WrittenWordReadsBack : Prop :=
  ∀ (s : State) (v : Word32) (k : Nat), s.pending = none → k < 8 →
    (s.hostWrite (0x120 + 4 * k) v).hostRead (0x120 + 4 * k) = v ∧
    (s.hostWrite (0x140 + 4 * k) v).hostRead (0x140 + 4 * k) = v ∧
    (s.hostWrite (0x180 + 4 * k) v).hostRead (0x180 + 4 * k) = v ∧
    (s.hostWrite (0x100 + 4 * k) v).hostRead (0x100 + 4 * k) = 0

/-- 10_state.md section 5: the layout of `STATUS`, with `DONE` coded 5 as the table has it (the model's reading,
notes/assumptions/9.md), `BUSY` as whether a command is pending, and the eight error codes of 60_exceptions.md
section 1 written out. -/
def Obligations.StatusLayout : Prop :=
  let number : ErrCode → Nat := fun
    | .none => 0
    | .illegalOp => 1
    | .reservedField => 2
    | .badTagsize => 3
    | .badCount => 4
    | .variant => 5
    | .sequence => 6
    | .length => 7
  ∀ s : State,
    (statusWord s).toNat =
      (if s.pending = none then 0 else 1) + 4 * s.err.toNat + 8 * s.bwe.toNat + 16 * s.auth.toNat +
      32 * (match s.var with | .v128L => 0 | .v256 => 1) +
      256 * (match s.phase with | .idle => 0 | .ad => 1 | .adPart => 2 | .msg => 3 | .msgPart => 4 | .done => 5) +
      4096 * (match s.tlen with | .t0 => 0 | .t16 => 1 | .t32 => 2) +
      65536 * number s.errcode + 16777216 * number s.lasterr

/-- 20_memory.md section 4 and 10_state.md sections 2 and 3: while the host only reads and writes registers and the core completes
no command, it learns nothing of `KEY` or of the state words: two machines that differ only in them answer every access alike. A read
while busy returns a value that the spec relates to nothing (70_reset_and_hazards.md section 3), so the run takes no such draw. -/
def Obligations.SecretsHiddenFromHost : Prop :=
  ∀ (n : Nat) (s t s' : State), s.SameButSecrets t →
    (∀ e ∈ s.inputs, e ≠ .core ∧ e ≠ .reset) → n ≤ s.inputs.length →
    runSteps n s = .next s' → s'.draws = s.draws →
    ∃ t' : State, runSteps n t = .next t' ∧ State.SameButSecrets s' t' ∧ t'.returned = s'.returned

/-! ### Reset -/

/-- R58: the reset values, and what the host then reads. -/
def Obligations.ResetValues : Prop :=
  State.reset.S = Lanes.zero ∧ State.reset.key = Data.zero ∧ State.reset.nonce = Data.zero ∧
  State.reset.din = Data.zero ∧ State.reset.dout = Data.zero ∧ State.reset.tagin = Data.zero ∧
  State.reset.tagout = Data.zero ∧ State.reset.adcnt = 0 ∧ State.reset.msgcnt = 0 ∧
  State.reset.err = false ∧ State.reset.bwe = false ∧ State.reset.auth = false ∧ State.reset.var = .v128L ∧
  State.reset.phase = .idle ∧ State.reset.tlen = .t0 ∧ State.reset.errcode = .none ∧ State.reset.lasterr = .none ∧
  State.reset.pending = none ∧ statusWord State.reset = 0x00000000 ∧ State.reset.hostRead 0x000 = 0xAE610701 ∧
  ∀ off, off ≠ 0x000 → State.reset.hostRead off = 0

/-- 70_reset_and_hazards.md section 1: reset at any time, a pending command discarded; the fields that are the model's own
(the host's inputs and reads, the draws; notes/assumptions/14.md) are kept. -/
def Obligations.ResetAnyTime : Prop :=
  ∀ (s : State) (rest : List Input), s.inputs = .reset :: rest →
    step s = .next { State.reset with inputs := rest, returned := s.returned, draws := s.draws }

/-! ### The round unit, the update and the length block -/

/-- 40_aes_round.md section 3, R149 ("[derived: from rules R140–R148]"): the round as one closed form. -/
def Obligations.RoundClosedForm : Prop :=
  ∀ (b rk : Block) (c : Nat), c < 4 →
    let t : Nat → Byte := fun j => sbox (b.get (j % 4 + 4 * ((j / 4 + j % 4) % 4)))
    (aesRound b rk).get (4 * c) =
      mul2 (t (4 * c)) ^^^ mul3 (t (4 * c + 1)) ^^^ t (4 * c + 2) ^^^ t (4 * c + 3) ^^^ rk.get (4 * c) ∧
    (aesRound b rk).get (4 * c + 1) =
      t (4 * c) ^^^ mul2 (t (4 * c + 1)) ^^^ mul3 (t (4 * c + 2)) ^^^ t (4 * c + 3) ^^^ rk.get (4 * c + 1) ∧
    (aesRound b rk).get (4 * c + 2) =
      t (4 * c) ^^^ t (4 * c + 1) ^^^ mul2 (t (4 * c + 2)) ^^^ mul3 (t (4 * c + 3)) ^^^ rk.get (4 * c + 2) ∧
    (aesRound b rk).get (4 * c + 3) =
      mul3 (t (4 * c)) ^^^ t (4 * c + 1) ^^^ t (4 * c + 2) ^^^ mul2 (t (4 * c + 3)) ^^^ rk.get (4 * c + 3)

/-- 40_aes_round.md section 3, R150 ("[derived: from rules R145, R146]"): SubBytes and ShiftRows commute, so
both orders define the same round. -/
def Obligations.SubBytesShiftRowsCommute : Prop :=
  ∀ b rk : Block, subBytes (shiftRows b) = shiftRows (subBytes b) ∧
    (mixColumns (subBytes (shiftRows b))).xor rk = aesRound b rk

/-- 40_aes_round.md section 3, R152 ("[derived: from rule R140]"): linearity in the key, with its two values. -/
def Obligations.RoundLinearInKey : Prop :=
  (∀ b k : Block, aesRound b k = (aesRound b Block.zero).xor k) ∧
  (∀ j, j < 16 → (aesRound Block.zero Block.zero).get j = 0x63) ∧
  (∀ j, j < 16 → (aesRound (Block.ofFn fun _ => 0xFF) Block.zero).get j = 0x16)

/-- 40_aes_round.md section 2, R143 ("[from general knowledge, not in source]"): the table of the S-box is the
affine map of the inverse, `0^{-1} = 0`, and every other byte has an inverse. -/
def Obligations.SboxIsAffineOfInverse : Prop :=
  (∀ a i : Byte, (gfMul a i = 1 ∨ a = 0 ∧ i = 0) → sbox a = sboxAffine i) ∧ ∀ a : Byte, a ≠ 0 → ∃ i, gfMul a i = 1

/-- 41_state_update.md section 1, R171, R172 (the places of the message blocks "[from general knowledge, not in source]"): the
updates written out; all words read the state before the update, and AEGIS-256 leaves `S[6]`, `S[7]`. -/
def Obligations.UpdatesWrittenOut : Prop :=
  (∀ (S : Lanes) (m0 m1 : Block), update128L S m0 m1 =
    ⟨aesRound S.s7 (S.s0.xor m0), aesRound S.s0 S.s1, aesRound S.s1 S.s2, aesRound S.s2 S.s3,
      aesRound S.s3 (S.s4.xor m1), aesRound S.s4 S.s5, aesRound S.s5 S.s6, aesRound S.s6 S.s7⟩) ∧
  (∀ (S : Lanes) (m : Block), update256 S m =
    ⟨aesRound S.s5 (S.s0.xor m), aesRound S.s0 S.s1, aesRound S.s1 S.s2, aesRound S.s2 S.s3, aesRound S.s3 S.s4,
      aesRound S.s4 S.s5, S.s6, S.s7⟩)

/-- 41_state_update.md section 3, R176 (the order "[from general knowledge, not in source]"): the length block holds both bit
lengths as 64-bit little-endian numbers, AD first. -/
def Obligations.LengthBlockValue : Prop :=
  ∀ a m : BitVec 64,
    ((List.range 8).map fun i => ((lenBlock a m).get i).toNat * 256 ^ i).sum = 8 * a.toNat % 2 ^ 64 ∧
    ((List.range 8).map fun i => ((lenBlock a m).get (i + 8)).toNat * 256 ^ i).sum = 8 * m.toNat % 2 ^ 64

/-- 42_aegis128l.md section 1, 43_aegis256.md section 1, R191, R231 (the second "[from general knowledge, not in source]"): the
keystreams, byte by byte. -/
def Obligations.KeystreamBytes : Prop :=
  ∀ (S : Lanes) (j : Nat), j < 16 →
    (z128 S).get j = S.s6.get j ^^^ S.s1.get j ^^^ (S.s2.get j &&& S.s3.get j) ∧
    (z128 S).get (j + 16) = S.s2.get j ^^^ S.s5.get j ^^^ (S.s6.get j &&& S.s7.get j) ∧
    (z256 S).get j = S.s1.get j ^^^ S.s4.get j ^^^ S.s5.get j ^^^ (S.s2.get j &&& S.s3.get j)

/-! ### Encryption and decryption -/

/-- 42_aegis128l.md section 3, 43_aegis256.md section 2: a decrypting command fed the first `n` bytes that the encrypting command of
the same count produced, from the same state words, leaves the same state words and outputs the plaintext, zero-padded. -/
def Obligations.DecryptMirrorsEncrypt : Prop :=
  ∀ (enc dec : Instr) (k : Nat),
    (enc = .enc128L ∧ dec = .dec128L ∧ k = 32 ∨
      (∃ n : BitVec 5, enc = .encp128L n ∧ dec = .decp128L n ∧ k = n.toNat) ∨
      enc = .enc256 ∧ dec = .dec256 ∧ k = 16 ∨
      ∃ n : BitVec 5, n.toNat ≤ 15 ∧ enc = .encp256 n ∧ dec = .decp256 n ∧ k = n.toNat) →
    ∀ (s t : State) (c : Data), exec enc s = .next t → t.lasterr = .none →
      (∀ j, j < k → c.get j = t.dout.get j) →
      ∃ u, exec dec { s with din := c } = .next u ∧ u.lasterr = .none ∧ u.S = t.S ∧ u.phase = t.phase ∧
        u.msgcnt = t.msgcnt ∧ ∀ j, j < 32 → u.dout.get j = if j < k then s.din.get j else 0

/-- 10_state.md section 3 and 92_eei_decisions.md D11, D25: a command does not read the bytes of `DIN` beyond its block. -/
def Obligations.DinBeyondBlockIgnored : Prop :=
  ∀ (i : Instr) (k : Nat),
    ((∃ n : BitVec 5, (i = .absp128L n ∨ i = .encp128L n ∨ i = .decp128L n ∨ i = .absp256 n ∨ i = .encp256 n ∨
        i = .decp256 n) ∧ k = n.toNat) ∨
      (i = .abs256 ∨ i = .enc256 ∨ i = .dec256) ∧ k = 16 ∨
      ((∃ c, i = .final128L c ∨ i = .final256 c) ∨ i = .init128L ∨ i = .init256 ∨ i = .verify) ∧ k = 0) →
    ∀ (s t s' : State), State.SameButDinFrom k s t → exec i s = .next s' →
      exec i t = .next { s' with din := t.din }

/-- 49_host_procedures.md section 1, R293 ("[derived: from rules R291, R292, R208]"). -/
def Obligations.AeadRoundTrip : Prop :=
  ∀ (v : Variant) (K N A M : List Byte) (t : TagSize),
    aeadDecrypt v K N A (aeadEncrypt v K N A M t) t = (true, M)

/-- 30_encoding.md section 3, `POLL`: whatever the number `n` of reads that come before the core's turn (the model's form of an open
schedule, notes/assumptions/17.md), the loop ends with `s[0] = 0`. With nothing pending its first read ends it; a pending command is
completed once, after `n` reads that found `BUSY = 1`, and one more read ends it. -/
def Obligations.PollWaitsForCompletion : Prop :=
  ∀ (n : Nat) (s : State),
    (poll n s).1.getLsbD 0 = false ∧
    (s.pending = none → poll n s = (statusWord s, { s with returned := statusWord s :: s.returned })) ∧
    ∀ (w : Word32) (t : State), s.pending = some w → execute w s = .next t →
      poll n s = (statusWord { t with pending := none }, { t with
        pending := none
        returned := statusWord { t with pending := none } :: (List.replicate n (statusWord s) ++ s.returned) })

/-- 49_host_procedures.md section 2, `HostEncrypt`: the commands compute `AeadEncrypt` (R295 marks it "[derived: from rules R200–R207,
R240–R247, R291]"), from any machine with nothing pending and `ERR` clear, and leave the machine as after reset. However long each
command stays pending (`wait`, the model's form of an open schedule, notes/assumptions/17.md); that the model's own fields are kept,
with what the host read added, is the model's choice (notes/assumptions/4.md, 14.md). -/
def Obligations.HostEncryptComputesAead : Prop :=
  ∀ (wait : State → Nat) (v : Variant) (K N A M : List Byte) (t : TagSize) (s : State),
    s.pending = none → s.err = false →
    K.length = keySize v → N.length = nonceSize v → A.length < 2 ^ 61 → M.length < 2 ^ 61 →
    ∃ reads : List Word32, hostEncrypt wait v K N A M t s = some (aeadEncrypt v K N A M t,
      { State.reset with inputs := s.inputs, returned := reads ++ s.returned, draws := s.draws })

/-- 49_host_procedures.md section 2, `HostTryDecrypt`: the commands compute `AeadDecrypt` (R296 marks it "[derived: from rules R205,
R206, R270, R292]"), and release no plaintext on a mismatch. However long each command stays pending (`wait`, the model's form of an
open schedule, notes/assumptions/17.md); that the model's own fields are kept, with what the host read added, is the model's choice
(notes/assumptions/4.md, 14.md). -/
def Obligations.HostTryDecryptComputesAead : Prop :=
  ∀ (wait : State → Nat) (v : Variant) (K N A X : List Byte) (t : TagSize) (s : State),
    s.pending = none → s.err = false →
    K.length = keySize v → N.length = nonceSize v → A.length < 2 ^ 61 →
    tagBytes t ≤ X.length → X.length - tagBytes t < 2 ^ 61 →
    ∃ reads : List Word32,
      hostTryDecrypt wait v K N A X t s = some ((aeadDecrypt v K N A X t).1, (aeadDecrypt v K N A X t).2,
        { State.reset with inputs := s.inputs, returned := reads ++ s.returned, draws := s.draws })

/-! ### Progress -/

/-- 60_exceptions.md section 6 and 70_reset_and_hazards.md section 2: no hang. A run whose accesses are admitted goes through all
its events, and one step later no command is pending. That the core's turn follows the last event is the model's choice, its form of
weak fairness (notes/assumptions/2.md). -/
def Obligations.EveryRunCompletes : Prop :=
  ∀ s : State, AllAdmitted s.inputs →
    ∃ t : State, runSteps (s.inputs.length + 1) s = .next t ∧ t.pending = none ∧ t.inputs = []
end

