-- ==== Sys2Proof/Laws/Bytes.lean ====
section
/-! SUPPORT. The laws of byte sequences: reading a byte of what an operation builds, equality byte by byte, and the group laws of
XOR. -/

namespace Sys2Proof

theorem Block.get_ofFn (f : Nat → Byte) {i : Nat} (h : i < 16) : (Block.ofFn f).get i = f i := by
  interval_cases i <;> rfl

theorem Block.get_of_ge (b : Block) {i : Nat} (h : 16 ≤ i) : b.get i = 0 := by
  obtain ⟨k, rfl⟩ := Nat.exists_eq_add_of_le h
  rw [Nat.add_comm]
  rfl

theorem Block.get_ofFn_ite (f : Nat → Byte) (i : Nat) : (Block.ofFn f).get i = if i < 16 then f i else 0 := by
  split
  · exact Block.get_ofFn f ‹_›
  · exact Block.get_of_ge _ (by omega)

theorem Block.ext_get {a b : Block} (h : ∀ i, i < 16 → a.get i = b.get i) : a = b := by
  obtain ⟨a0, a1, a2, a3, a4, a5, a6, a7, a8, a9, a10, a11, a12, a13, a14, a15⟩ := a
  obtain ⟨b0, b1, b2, b3, b4, b5, b6, b7, b8, b9, b10, b11, b12, b13, b14, b15⟩ := b
  have e := fun i hi => h i hi
  simp only [Block.mk.injEq]
  exact ⟨e 0 (by omega), e 1 (by omega), e 2 (by omega), e 3 (by omega), e 4 (by omega), e 5 (by omega), e 6 (by omega),
    e 7 (by omega), e 8 (by omega), e 9 (by omega), e 10 (by omega), e 11 (by omega), e 12 (by omega), e 13 (by omega),
    e 14 (by omega), e 15 (by omega)⟩

@[simp] theorem Block.get_zero (i : Nat) : Block.zero.get i = 0 := by
  rcases Nat.lt_or_ge i 16 with h | h
  · interval_cases i <;> rfl
  · exact Block.get_of_ge _ h

@[simp] theorem Block.get_xor (a b : Block) (i : Nat) : (a.xor b).get i = a.get i ^^^ b.get i := by
  rcases Nat.lt_or_ge i 16 with h | h
  · exact Block.get_ofFn _ h
  · simp [Block.get_of_ge _ h]

@[simp] theorem Block.get_and (a b : Block) (i : Nat) : (a.and b).get i = a.get i &&& b.get i := by
  rcases Nat.lt_or_ge i 16 with h | h
  · exact Block.get_ofFn _ h
  · simp [Block.get_of_ge _ h]

theorem Block.xor_comm (a b : Block) : a.xor b = b.xor a :=
  Block.ext_get fun i _ => by simp [BitVec.xor_comm]

theorem Block.xor_assoc (a b c : Block) : (a.xor b).xor c = a.xor (b.xor c) :=
  Block.ext_get fun i _ => by simp [BitVec.xor_assoc]

@[simp] theorem Block.xor_zero (a : Block) : a.xor Block.zero = a :=
  Block.ext_get fun i _ => by simp

@[simp] theorem Block.zero_xor (a : Block) : Block.zero.xor a = a :=
  Block.ext_get fun i _ => by simp

@[simp] theorem Block.xor_self (a : Block) : a.xor a = Block.zero :=
  Block.ext_get fun i _ => by simp

@[simp] theorem Block.xor_xor_cancel (a b : Block) : (a.xor b).xor b = a := by
  rw [Block.xor_assoc, Block.xor_self, Block.xor_zero]

theorem Data.get_lo (d : Data) {i : Nat} (h : i < 16) : d.get i = d.lo.get i := by simp [Data.get, h]

theorem Data.get_hi (d : Data) (i : Nat) : d.get (i + 16) = d.hi.get i := by simp [Data.get]

theorem Data.get_of_ge (d : Data) {i : Nat} (h : 32 ≤ i) : d.get i = 0 := by
  have h1 : ¬ i < 16 := by omega
  simp only [Data.get, h1, if_false]
  exact Block.get_of_ge _ (by omega)

theorem Data.ext_get {a b : Data} (h : ∀ i, i < 32 → a.get i = b.get i) : a = b := by
  obtain ⟨al, ah⟩ := a
  obtain ⟨bl, bh⟩ := b
  congr 1
  · refine Block.ext_get fun i hi => ?_
    simpa [Data.get, hi] using h i (by omega)
  · refine Block.ext_get fun i hi => ?_
    simpa [Data.get] using h (i + 16) (by omega)

theorem Data.get_ofFn (f : Nat → Byte) {i : Nat} (h : i < 32) : (Data.ofFn f).get i = f i := by
  rcases Nat.lt_or_ge i 16 with h1 | h1
  · rw [Data.get_lo _ h1]
    exact Block.get_ofFn _ h1
  · obtain ⟨k, rfl⟩ := Nat.exists_eq_add_of_le h1
    rw [Nat.add_comm, Data.get_hi]
    exact Block.get_ofFn _ (by omega)

theorem Data.get_ofFn_ite (f : Nat → Byte) (i : Nat) : (Data.ofFn f).get i = if i < 32 then f i else 0 := by
  split
  · exact Data.get_ofFn f ‹_›
  · exact Data.get_of_ge _ (by omega)

@[simp] theorem Data.get_zero (i : Nat) : Data.zero.get i = 0 := by simp [Data.get, Data.zero]

@[simp] theorem Data.get_xor (a b : Data) (i : Nat) : (a.xor b).get i = a.get i ^^^ b.get i := by
  unfold Data.get Data.xor
  split <;> simp

@[simp] theorem Data.xor_xor_cancel (a b : Data) : (a.xor b).xor b = a := by simp [Data.xor]

theorem get_padBlock (x : Nat → Byte) (n i : Nat) : (padBlock x n).get i = if i < 16 ∧ i < n then x i else 0 := by
  rw [padBlock, Block.get_ofFn_ite]
  by_cases h1 : i < 16 <;> by_cases h2 : i < n <;> simp [h1, h2]

theorem get_padData (x : Nat → Byte) (n i : Nat) : (padData x n).get i = if i < 32 ∧ i < n then x i else 0 := by
  rw [padData, Data.get_ofFn_ite]
  by_cases h1 : i < 32 <;> by_cases h2 : i < n <;> simp [h1, h2]

theorem Data.get_setWord (d : Data) (k : Nat) (v : Word32) {j : Nat} (h : j < 32) :
    (d.setWord k v).get j = if j / 4 = k then wordByte v (j % 4) else d.get j := Data.get_ofFn _ h

theorem Lanes.get_ofFn (f : Nat → Block) {i : Nat} (h : i < 8) : (Lanes.ofFn f).get i = f i := by
  interval_cases i <;> rfl

theorem Lanes.ext_get {a b : Lanes} (h : ∀ i, i < 8 → a.get i = b.get i) : a = b := by
  obtain ⟨a0, a1, a2, a3, a4, a5, a6, a7⟩ := a
  obtain ⟨b0, b1, b2, b3, b4, b5, b6, b7⟩ := b
  have e := fun i hi => h i hi
  simp only [Lanes.mk.injEq]
  exact ⟨e 0 (by omega), e 1 (by omega), e 2 (by omega), e 3 (by omega), e 4 (by omega), e 5 (by omega), e 6 (by omega),
    e 7 (by omega)⟩

@[simp] theorem Block.length_toBytes (b : Block) : b.toBytes.length = 16 := by simp [Block.toBytes]

@[simp] theorem Data.length_toBytes (d : Data) : d.toBytes.length = 32 := by simp [Data.toBytes]

theorem Block.getD_toBytes (b : Block) (i : Nat) : b.toBytes.getD i 0 = b.get i := by
  rcases Nat.lt_or_ge i 16 with h | h
  · simp [Block.toBytes, List.getD, h]
  · rw [Block.get_of_ge _ h]
    simp [Block.toBytes, List.getD, h]

theorem Data.getD_toBytes (d : Data) (i : Nat) : d.toBytes.getD i 0 = d.get i := by
  rcases Nat.lt_or_ge i 32 with h | h
  · simp [Data.toBytes, List.getD, h]
  · rw [Data.get_of_ge _ h]
    simp [Data.toBytes, List.getD, h]

end Sys2Proof
end

