-- ==== Sys2Proof/Laws/Check.lean ====
section
/-! SUPPORT. When the state checks of a command pass (spec/60_exceptions.md R331). -/

namespace Sys2Proof.Machine

theorem orderCheck_eq_none_iff {v : Variant} {legal : List Phase} {s : State} :
    orderCheck v legal s = .none ↔ (s.phase = .idle ∨ v = s.var) ∧ s.phase ∈ legal := by
  unfold orderCheck
  split_ifs <;> (simp_all; try tauto)

theorem blockCheck_eq_none_iff {v : Variant} {legal : List Phase} {c : BitVec 64} {k : Nat} {s : State} :
    blockCheck v legal c k s = .none ↔
      (s.phase = .idle ∨ v = s.var) ∧ s.phase ∈ legal ∧ c.toNat + k < Config.countLimit := by
  unfold blockCheck
  split
  · rename_i h
    obtain ⟨h1, h2⟩ := orderCheck_eq_none_iff.1 h
    split_ifs <;> simp_all
  · rename_i h
    exact ⟨fun h' => absurd h' h, fun h' => absurd (orderCheck_eq_none_iff.2 ⟨h'.1, h'.2.1⟩) h⟩

/-- A partial or full block of a session command of variant `v` passes its check in a legal phase of that variant, within the
length limit. -/
theorem blockCheck_of_session {v : Variant} {legal : List Phase} {c : BitVec 64} {k : Nat} {s : State}
    (hv : s.var = v) (hp : s.phase ∈ legal) (hk : c.toNat + k < 2 ^ 61) : blockCheck v legal c k s = .none :=
  blockCheck_eq_none_iff.2 ⟨.inr hv.symm, hp, hk⟩

end Sys2Proof.Machine
end

