-- ==== Sys2Proof/Laws/PerInstr.lean ====
section
/-! SUPPORT. A law of every command, one lemma per constructor of `Instr`: its word has the reserved bits 0
(spec/30_encoding.md R105). -/

namespace Sys2Proof.Laws.ReservedBitsZero

/-- R100, R105: bits 15:11 and 31:21 of the command's word are 0. -/
def Statement (i : Instr) : Prop := encode i &&& reservedMask = 0

theorem aesrnd : Statement .aesrnd := by unfold Statement; decide

theorem zeroize : Statement .zeroize := by unfold Statement; decide

theorem verify : Statement .verify := by unfold Statement; decide

theorem init128L : Statement .init128L := by unfold Statement; decide

theorem abs128L : Statement .abs128L := by unfold Statement; decide

theorem absp128L (n : BitVec 5) : Statement (.absp128L n) := by unfold Statement; revert n; decide

theorem enc128L : Statement .enc128L := by unfold Statement; decide

theorem encp128L (n : BitVec 5) : Statement (.encp128L n) := by unfold Statement; revert n; decide

theorem dec128L : Statement .dec128L := by unfold Statement; decide

theorem decp128L (n : BitVec 5) : Statement (.decp128L n) := by unfold Statement; revert n; decide

theorem final128L (t : TagSize) : Statement (.final128L t) := by unfold Statement; cases t <;> decide

theorem init256 : Statement .init256 := by unfold Statement; decide

theorem abs256 : Statement .abs256 := by unfold Statement; decide

theorem absp256 (n : BitVec 5) : Statement (.absp256 n) := by unfold Statement; revert n; decide

theorem enc256 : Statement .enc256 := by unfold Statement; decide

theorem encp256 (n : BitVec 5) : Statement (.encp256 n) := by unfold Statement; revert n; decide

theorem dec256 : Statement .dec256 := by unfold Statement; decide

theorem decp256 (n : BitVec 5) : Statement (.decp256 n) := by unfold Statement; revert n; decide

theorem final256 (t : TagSize) : Statement (.final256 t) := by unfold Statement; cases t <;> decide

end Sys2Proof.Laws.ReservedBitsZero
end

