-- ==== Sys2Proof/Laws/State.lean ====
section
/-! SUPPORT. For each update of the state that Machine/Ops.lean names, one lemma per field: the field's value after it. -/

namespace Sys2Proof.Machine

variable (s : State)

@[simp] theorem State.cmdError_S (e : ErrCode) : (s.cmdError e).S = s.S := rfl
@[simp] theorem State.cmdError_key (e : ErrCode) : (s.cmdError e).key = s.key := rfl
@[simp] theorem State.cmdError_nonce (e : ErrCode) : (s.cmdError e).nonce = s.nonce := rfl
@[simp] theorem State.cmdError_din (e : ErrCode) : (s.cmdError e).din = s.din := rfl
@[simp] theorem State.cmdError_dout (e : ErrCode) : (s.cmdError e).dout = s.dout := rfl
@[simp] theorem State.cmdError_tagin (e : ErrCode) : (s.cmdError e).tagin = s.tagin := rfl
@[simp] theorem State.cmdError_tagout (e : ErrCode) : (s.cmdError e).tagout = s.tagout := rfl
@[simp] theorem State.cmdError_adcnt (e : ErrCode) : (s.cmdError e).adcnt = s.adcnt := rfl
@[simp] theorem State.cmdError_msgcnt (e : ErrCode) : (s.cmdError e).msgcnt = s.msgcnt := rfl
@[simp] theorem State.cmdError_err (e : ErrCode) : (s.cmdError e).err = true := rfl
@[simp] theorem State.cmdError_bwe (e : ErrCode) : (s.cmdError e).bwe = s.bwe := rfl
@[simp] theorem State.cmdError_auth (e : ErrCode) : (s.cmdError e).auth = s.auth := rfl
@[simp] theorem State.cmdError_var (e : ErrCode) : (s.cmdError e).var = s.var := rfl
@[simp] theorem State.cmdError_phase (e : ErrCode) : (s.cmdError e).phase = s.phase := rfl
@[simp] theorem State.cmdError_tlen (e : ErrCode) : (s.cmdError e).tlen = s.tlen := rfl
@[simp] theorem State.cmdError_errcode (e : ErrCode) : (s.cmdError e).errcode = if s.err then s.errcode else e := rfl
@[simp] theorem State.cmdError_lasterr (e : ErrCode) : (s.cmdError e).lasterr = e := rfl
@[simp] theorem State.cmdError_pending (e : ErrCode) : (s.cmdError e).pending = s.pending := rfl
@[simp] theorem State.cmdError_inputs (e : ErrCode) : (s.cmdError e).inputs = s.inputs := rfl
@[simp] theorem State.cmdError_returned (e : ErrCode) : (s.cmdError e).returned = s.returned := rfl
@[simp] theorem State.cmdError_draws (e : ErrCode) : (s.cmdError e).draws = s.draws := rfl

@[simp] theorem State.succeed_S : s.succeed.S = s.S := rfl
@[simp] theorem State.succeed_key : s.succeed.key = s.key := rfl
@[simp] theorem State.succeed_nonce : s.succeed.nonce = s.nonce := rfl
@[simp] theorem State.succeed_din : s.succeed.din = s.din := rfl
@[simp] theorem State.succeed_dout : s.succeed.dout = s.dout := rfl
@[simp] theorem State.succeed_tagin : s.succeed.tagin = s.tagin := rfl
@[simp] theorem State.succeed_tagout : s.succeed.tagout = s.tagout := rfl
@[simp] theorem State.succeed_adcnt : s.succeed.adcnt = s.adcnt := rfl
@[simp] theorem State.succeed_msgcnt : s.succeed.msgcnt = s.msgcnt := rfl
@[simp] theorem State.succeed_err : s.succeed.err = s.err := rfl
@[simp] theorem State.succeed_bwe : s.succeed.bwe = s.bwe := rfl
@[simp] theorem State.succeed_auth : s.succeed.auth = s.auth := rfl
@[simp] theorem State.succeed_var : s.succeed.var = s.var := rfl
@[simp] theorem State.succeed_phase : s.succeed.phase = s.phase := rfl
@[simp] theorem State.succeed_tlen : s.succeed.tlen = s.tlen := rfl
@[simp] theorem State.succeed_errcode : s.succeed.errcode = s.errcode := rfl
@[simp] theorem State.succeed_lasterr : s.succeed.lasterr = .none := rfl
@[simp] theorem State.succeed_pending : s.succeed.pending = s.pending := rfl
@[simp] theorem State.succeed_inputs : s.succeed.inputs = s.inputs := rfl
@[simp] theorem State.succeed_returned : s.succeed.returned = s.returned := rfl
@[simp] theorem State.succeed_draws : s.succeed.draws = s.draws := rfl

@[simp] theorem State.clearPending_S : s.clearPending.S = s.S := rfl
@[simp] theorem State.clearPending_key : s.clearPending.key = s.key := rfl
@[simp] theorem State.clearPending_nonce : s.clearPending.nonce = s.nonce := rfl
@[simp] theorem State.clearPending_din : s.clearPending.din = s.din := rfl
@[simp] theorem State.clearPending_dout : s.clearPending.dout = s.dout := rfl
@[simp] theorem State.clearPending_tagin : s.clearPending.tagin = s.tagin := rfl
@[simp] theorem State.clearPending_tagout : s.clearPending.tagout = s.tagout := rfl
@[simp] theorem State.clearPending_adcnt : s.clearPending.adcnt = s.adcnt := rfl
@[simp] theorem State.clearPending_msgcnt : s.clearPending.msgcnt = s.msgcnt := rfl
@[simp] theorem State.clearPending_err : s.clearPending.err = s.err := rfl
@[simp] theorem State.clearPending_bwe : s.clearPending.bwe = s.bwe := rfl
@[simp] theorem State.clearPending_auth : s.clearPending.auth = s.auth := rfl
@[simp] theorem State.clearPending_var : s.clearPending.var = s.var := rfl
@[simp] theorem State.clearPending_phase : s.clearPending.phase = s.phase := rfl
@[simp] theorem State.clearPending_tlen : s.clearPending.tlen = s.tlen := rfl
@[simp] theorem State.clearPending_errcode : s.clearPending.errcode = s.errcode := rfl
@[simp] theorem State.clearPending_lasterr : s.clearPending.lasterr = s.lasterr := rfl
@[simp] theorem State.clearPending_pending : s.clearPending.pending = none := rfl
@[simp] theorem State.clearPending_inputs : s.clearPending.inputs = s.inputs := rfl
@[simp] theorem State.clearPending_returned : s.clearPending.returned = s.returned := rfl
@[simp] theorem State.clearPending_draws : s.clearPending.draws = s.draws := rfl

@[simp] theorem State.roundOutput_S (out : Block) : (s.roundOutput out).S = s.S := rfl
@[simp] theorem State.roundOutput_key (out : Block) : (s.roundOutput out).key = s.key := rfl
@[simp] theorem State.roundOutput_nonce (out : Block) : (s.roundOutput out).nonce = s.nonce := rfl
@[simp] theorem State.roundOutput_din (out : Block) : (s.roundOutput out).din = s.din := rfl
@[simp] theorem State.roundOutput_dout (out : Block) : (s.roundOutput out).dout = ⟨out, Block.zero⟩ := rfl
@[simp] theorem State.roundOutput_tagin (out : Block) : (s.roundOutput out).tagin = s.tagin := rfl
@[simp] theorem State.roundOutput_tagout (out : Block) : (s.roundOutput out).tagout = s.tagout := rfl
@[simp] theorem State.roundOutput_adcnt (out : Block) : (s.roundOutput out).adcnt = s.adcnt := rfl
@[simp] theorem State.roundOutput_msgcnt (out : Block) : (s.roundOutput out).msgcnt = s.msgcnt := rfl
@[simp] theorem State.roundOutput_err (out : Block) : (s.roundOutput out).err = s.err := rfl
@[simp] theorem State.roundOutput_bwe (out : Block) : (s.roundOutput out).bwe = s.bwe := rfl
@[simp] theorem State.roundOutput_auth (out : Block) : (s.roundOutput out).auth = s.auth := rfl
@[simp] theorem State.roundOutput_var (out : Block) : (s.roundOutput out).var = s.var := rfl
@[simp] theorem State.roundOutput_phase (out : Block) : (s.roundOutput out).phase = s.phase := rfl
@[simp] theorem State.roundOutput_tlen (out : Block) : (s.roundOutput out).tlen = s.tlen := rfl
@[simp] theorem State.roundOutput_errcode (out : Block) : (s.roundOutput out).errcode = s.errcode := rfl
@[simp] theorem State.roundOutput_lasterr (out : Block) : (s.roundOutput out).lasterr = s.lasterr := rfl
@[simp] theorem State.roundOutput_pending (out : Block) : (s.roundOutput out).pending = s.pending := rfl
@[simp] theorem State.roundOutput_inputs (out : Block) : (s.roundOutput out).inputs = s.inputs := rfl
@[simp] theorem State.roundOutput_returned (out : Block) : (s.roundOutput out).returned = s.returned := rfl
@[simp] theorem State.roundOutput_draws (out : Block) : (s.roundOutput out).draws = s.draws := rfl

@[simp] theorem State.startSession_S (v : Variant) (T : Lanes) : (s.startSession v T).S = T := rfl
@[simp] theorem State.startSession_key (v : Variant) (T : Lanes) : (s.startSession v T).key = s.key := rfl
@[simp] theorem State.startSession_nonce (v : Variant) (T : Lanes) : (s.startSession v T).nonce = s.nonce := rfl
@[simp] theorem State.startSession_din (v : Variant) (T : Lanes) : (s.startSession v T).din = s.din := rfl
@[simp] theorem State.startSession_dout (v : Variant) (T : Lanes) : (s.startSession v T).dout = Data.zero := rfl
@[simp] theorem State.startSession_tagin (v : Variant) (T : Lanes) : (s.startSession v T).tagin = s.tagin := rfl
@[simp] theorem State.startSession_tagout (v : Variant) (T : Lanes) : (s.startSession v T).tagout = Data.zero := rfl
@[simp] theorem State.startSession_adcnt (v : Variant) (T : Lanes) : (s.startSession v T).adcnt = 0 := rfl
@[simp] theorem State.startSession_msgcnt (v : Variant) (T : Lanes) : (s.startSession v T).msgcnt = 0 := rfl
@[simp] theorem State.startSession_err (v : Variant) (T : Lanes) : (s.startSession v T).err = s.err := rfl
@[simp] theorem State.startSession_bwe (v : Variant) (T : Lanes) : (s.startSession v T).bwe = s.bwe := rfl
@[simp] theorem State.startSession_auth (v : Variant) (T : Lanes) : (s.startSession v T).auth = false := rfl
@[simp] theorem State.startSession_var (v : Variant) (T : Lanes) : (s.startSession v T).var = v := rfl
@[simp] theorem State.startSession_phase (v : Variant) (T : Lanes) : (s.startSession v T).phase = .ad := rfl
@[simp] theorem State.startSession_tlen (v : Variant) (T : Lanes) : (s.startSession v T).tlen = .t0 := rfl
@[simp] theorem State.startSession_errcode (v : Variant) (T : Lanes) : (s.startSession v T).errcode = s.errcode := rfl
@[simp] theorem State.startSession_lasterr (v : Variant) (T : Lanes) : (s.startSession v T).lasterr = s.lasterr := rfl
@[simp] theorem State.startSession_pending (v : Variant) (T : Lanes) : (s.startSession v T).pending = s.pending := rfl
@[simp] theorem State.startSession_inputs (v : Variant) (T : Lanes) : (s.startSession v T).inputs = s.inputs := rfl
@[simp] theorem State.startSession_returned (v : Variant) (T : Lanes) : (s.startSession v T).returned = s.returned := rfl
@[simp] theorem State.startSession_draws (v : Variant) (T : Lanes) : (s.startSession v T).draws = s.draws := rfl

@[simp] theorem State.absorb_S (T : Lanes) (k : Nat) (ph : Phase) : (s.absorb T k ph).S = T := rfl
@[simp] theorem State.absorb_key (T : Lanes) (k : Nat) (ph : Phase) : (s.absorb T k ph).key = s.key := rfl
@[simp] theorem State.absorb_nonce (T : Lanes) (k : Nat) (ph : Phase) : (s.absorb T k ph).nonce = s.nonce := rfl
@[simp] theorem State.absorb_din (T : Lanes) (k : Nat) (ph : Phase) : (s.absorb T k ph).din = s.din := rfl
@[simp] theorem State.absorb_dout (T : Lanes) (k : Nat) (ph : Phase) : (s.absorb T k ph).dout = s.dout := rfl
@[simp] theorem State.absorb_tagin (T : Lanes) (k : Nat) (ph : Phase) : (s.absorb T k ph).tagin = s.tagin := rfl
@[simp] theorem State.absorb_tagout (T : Lanes) (k : Nat) (ph : Phase) : (s.absorb T k ph).tagout = s.tagout := rfl
@[simp] theorem State.absorb_adcnt (T : Lanes) (k : Nat) (ph : Phase) : (s.absorb T k ph).adcnt = s.adcnt + BitVec.ofNat 64 k := rfl
@[simp] theorem State.absorb_msgcnt (T : Lanes) (k : Nat) (ph : Phase) : (s.absorb T k ph).msgcnt = s.msgcnt := rfl
@[simp] theorem State.absorb_err (T : Lanes) (k : Nat) (ph : Phase) : (s.absorb T k ph).err = s.err := rfl
@[simp] theorem State.absorb_bwe (T : Lanes) (k : Nat) (ph : Phase) : (s.absorb T k ph).bwe = s.bwe := rfl
@[simp] theorem State.absorb_auth (T : Lanes) (k : Nat) (ph : Phase) : (s.absorb T k ph).auth = s.auth := rfl
@[simp] theorem State.absorb_var (T : Lanes) (k : Nat) (ph : Phase) : (s.absorb T k ph).var = s.var := rfl
@[simp] theorem State.absorb_phase (T : Lanes) (k : Nat) (ph : Phase) : (s.absorb T k ph).phase = ph := rfl
@[simp] theorem State.absorb_tlen (T : Lanes) (k : Nat) (ph : Phase) : (s.absorb T k ph).tlen = s.tlen := rfl
@[simp] theorem State.absorb_errcode (T : Lanes) (k : Nat) (ph : Phase) : (s.absorb T k ph).errcode = s.errcode := rfl
@[simp] theorem State.absorb_lasterr (T : Lanes) (k : Nat) (ph : Phase) : (s.absorb T k ph).lasterr = s.lasterr := rfl
@[simp] theorem State.absorb_pending (T : Lanes) (k : Nat) (ph : Phase) : (s.absorb T k ph).pending = s.pending := rfl
@[simp] theorem State.absorb_inputs (T : Lanes) (k : Nat) (ph : Phase) : (s.absorb T k ph).inputs = s.inputs := rfl
@[simp] theorem State.absorb_returned (T : Lanes) (k : Nat) (ph : Phase) : (s.absorb T k ph).returned = s.returned := rfl
@[simp] theorem State.absorb_draws (T : Lanes) (k : Nat) (ph : Phase) : (s.absorb T k ph).draws = s.draws := rfl

@[simp] theorem State.message_S (T : Lanes) (out : Data) (k : Nat) (ph : Phase) : (s.message T out k ph).S = T := rfl
@[simp] theorem State.message_key (T : Lanes) (out : Data) (k : Nat) (ph : Phase) : (s.message T out k ph).key = s.key := rfl
@[simp] theorem State.message_nonce (T : Lanes) (out : Data) (k : Nat) (ph : Phase) : (s.message T out k ph).nonce = s.nonce := rfl
@[simp] theorem State.message_din (T : Lanes) (out : Data) (k : Nat) (ph : Phase) : (s.message T out k ph).din = s.din := rfl
@[simp] theorem State.message_dout (T : Lanes) (out : Data) (k : Nat) (ph : Phase) : (s.message T out k ph).dout = out := rfl
@[simp] theorem State.message_tagin (T : Lanes) (out : Data) (k : Nat) (ph : Phase) : (s.message T out k ph).tagin = s.tagin := rfl
@[simp] theorem State.message_tagout (T : Lanes) (out : Data) (k : Nat) (ph : Phase) : (s.message T out k ph).tagout = s.tagout := rfl
@[simp] theorem State.message_adcnt (T : Lanes) (out : Data) (k : Nat) (ph : Phase) : (s.message T out k ph).adcnt = s.adcnt := rfl
@[simp] theorem State.message_msgcnt (T : Lanes) (out : Data) (k : Nat) (ph : Phase) : (s.message T out k ph).msgcnt = s.msgcnt + BitVec.ofNat 64 k := rfl
@[simp] theorem State.message_err (T : Lanes) (out : Data) (k : Nat) (ph : Phase) : (s.message T out k ph).err = s.err := rfl
@[simp] theorem State.message_bwe (T : Lanes) (out : Data) (k : Nat) (ph : Phase) : (s.message T out k ph).bwe = s.bwe := rfl
@[simp] theorem State.message_auth (T : Lanes) (out : Data) (k : Nat) (ph : Phase) : (s.message T out k ph).auth = s.auth := rfl
@[simp] theorem State.message_var (T : Lanes) (out : Data) (k : Nat) (ph : Phase) : (s.message T out k ph).var = s.var := rfl
@[simp] theorem State.message_phase (T : Lanes) (out : Data) (k : Nat) (ph : Phase) : (s.message T out k ph).phase = ph := rfl
@[simp] theorem State.message_tlen (T : Lanes) (out : Data) (k : Nat) (ph : Phase) : (s.message T out k ph).tlen = s.tlen := rfl
@[simp] theorem State.message_errcode (T : Lanes) (out : Data) (k : Nat) (ph : Phase) : (s.message T out k ph).errcode = s.errcode := rfl
@[simp] theorem State.message_lasterr (T : Lanes) (out : Data) (k : Nat) (ph : Phase) : (s.message T out k ph).lasterr = s.lasterr := rfl
@[simp] theorem State.message_pending (T : Lanes) (out : Data) (k : Nat) (ph : Phase) : (s.message T out k ph).pending = s.pending := rfl
@[simp] theorem State.message_inputs (T : Lanes) (out : Data) (k : Nat) (ph : Phase) : (s.message T out k ph).inputs = s.inputs := rfl
@[simp] theorem State.message_returned (T : Lanes) (out : Data) (k : Nat) (ph : Phase) : (s.message T out k ph).returned = s.returned := rfl
@[simp] theorem State.message_draws (T : Lanes) (out : Data) (k : Nat) (ph : Phase) : (s.message T out k ph).draws = s.draws := rfl

@[simp] theorem State.finish_S (T : Lanes) (c : TagSize) (tag : List Byte) : (s.finish T c tag).S = T := rfl
@[simp] theorem State.finish_key (T : Lanes) (c : TagSize) (tag : List Byte) : (s.finish T c tag).key = s.key := rfl
@[simp] theorem State.finish_nonce (T : Lanes) (c : TagSize) (tag : List Byte) : (s.finish T c tag).nonce = s.nonce := rfl
@[simp] theorem State.finish_din (T : Lanes) (c : TagSize) (tag : List Byte) : (s.finish T c tag).din = s.din := rfl
@[simp] theorem State.finish_dout (T : Lanes) (c : TagSize) (tag : List Byte) : (s.finish T c tag).dout = s.dout := rfl
@[simp] theorem State.finish_tagin (T : Lanes) (c : TagSize) (tag : List Byte) : (s.finish T c tag).tagin = s.tagin := rfl
@[simp] theorem State.finish_tagout (T : Lanes) (c : TagSize) (tag : List Byte) : (s.finish T c tag).tagout = padData (fun i => tag.getD i 0) (tagBytes c) := rfl
@[simp] theorem State.finish_adcnt (T : Lanes) (c : TagSize) (tag : List Byte) : (s.finish T c tag).adcnt = s.adcnt := rfl
@[simp] theorem State.finish_msgcnt (T : Lanes) (c : TagSize) (tag : List Byte) : (s.finish T c tag).msgcnt = s.msgcnt := rfl
@[simp] theorem State.finish_err (T : Lanes) (c : TagSize) (tag : List Byte) : (s.finish T c tag).err = s.err := rfl
@[simp] theorem State.finish_bwe (T : Lanes) (c : TagSize) (tag : List Byte) : (s.finish T c tag).bwe = s.bwe := rfl
@[simp] theorem State.finish_auth (T : Lanes) (c : TagSize) (tag : List Byte) : (s.finish T c tag).auth = s.auth := rfl
@[simp] theorem State.finish_var (T : Lanes) (c : TagSize) (tag : List Byte) : (s.finish T c tag).var = s.var := rfl
@[simp] theorem State.finish_phase (T : Lanes) (c : TagSize) (tag : List Byte) : (s.finish T c tag).phase = .done := rfl
@[simp] theorem State.finish_tlen (T : Lanes) (c : TagSize) (tag : List Byte) : (s.finish T c tag).tlen = c := rfl
@[simp] theorem State.finish_errcode (T : Lanes) (c : TagSize) (tag : List Byte) : (s.finish T c tag).errcode = s.errcode := rfl
@[simp] theorem State.finish_lasterr (T : Lanes) (c : TagSize) (tag : List Byte) : (s.finish T c tag).lasterr = s.lasterr := rfl
@[simp] theorem State.finish_pending (T : Lanes) (c : TagSize) (tag : List Byte) : (s.finish T c tag).pending = s.pending := rfl
@[simp] theorem State.finish_inputs (T : Lanes) (c : TagSize) (tag : List Byte) : (s.finish T c tag).inputs = s.inputs := rfl
@[simp] theorem State.finish_returned (T : Lanes) (c : TagSize) (tag : List Byte) : (s.finish T c tag).returned = s.returned := rfl
@[simp] theorem State.finish_draws (T : Lanes) (c : TagSize) (tag : List Byte) : (s.finish T c tag).draws = s.draws := rfl

@[simp] theorem State.clearAll_S : s.clearAll.S = Lanes.zero := rfl
@[simp] theorem State.clearAll_key : s.clearAll.key = Data.zero := rfl
@[simp] theorem State.clearAll_nonce : s.clearAll.nonce = Data.zero := rfl
@[simp] theorem State.clearAll_din : s.clearAll.din = Data.zero := rfl
@[simp] theorem State.clearAll_dout : s.clearAll.dout = Data.zero := rfl
@[simp] theorem State.clearAll_tagin : s.clearAll.tagin = Data.zero := rfl
@[simp] theorem State.clearAll_tagout : s.clearAll.tagout = Data.zero := rfl
@[simp] theorem State.clearAll_adcnt : s.clearAll.adcnt = 0 := rfl
@[simp] theorem State.clearAll_msgcnt : s.clearAll.msgcnt = 0 := rfl
@[simp] theorem State.clearAll_err : s.clearAll.err = false := rfl
@[simp] theorem State.clearAll_bwe : s.clearAll.bwe = false := rfl
@[simp] theorem State.clearAll_auth : s.clearAll.auth = false := rfl
@[simp] theorem State.clearAll_var : s.clearAll.var = .v128L := rfl
@[simp] theorem State.clearAll_phase : s.clearAll.phase = .idle := rfl
@[simp] theorem State.clearAll_tlen : s.clearAll.tlen = .t0 := rfl
@[simp] theorem State.clearAll_errcode : s.clearAll.errcode = .none := rfl
@[simp] theorem State.clearAll_lasterr : s.clearAll.lasterr = .none := rfl
@[simp] theorem State.clearAll_pending : s.clearAll.pending = none := rfl
@[simp] theorem State.clearAll_inputs : s.clearAll.inputs = s.inputs := rfl
@[simp] theorem State.clearAll_returned : s.clearAll.returned = s.returned := rfl
@[simp] theorem State.clearAll_draws : s.clearAll.draws = s.draws := rfl

@[simp] theorem State.zeroized_S : s.zeroized.S = Lanes.zero := rfl
@[simp] theorem State.zeroized_key : s.zeroized.key = Data.zero := rfl
@[simp] theorem State.zeroized_nonce : s.zeroized.nonce = Data.zero := rfl
@[simp] theorem State.zeroized_din : s.zeroized.din = Data.zero := rfl
@[simp] theorem State.zeroized_dout : s.zeroized.dout = Data.zero := rfl
@[simp] theorem State.zeroized_tagin : s.zeroized.tagin = Data.zero := rfl
@[simp] theorem State.zeroized_tagout : s.zeroized.tagout = Data.zero := rfl
@[simp] theorem State.zeroized_adcnt : s.zeroized.adcnt = 0 := rfl
@[simp] theorem State.zeroized_msgcnt : s.zeroized.msgcnt = 0 := rfl
@[simp] theorem State.zeroized_err : s.zeroized.err = false := rfl
@[simp] theorem State.zeroized_bwe : s.zeroized.bwe = false := rfl
@[simp] theorem State.zeroized_auth : s.zeroized.auth = false := rfl
@[simp] theorem State.zeroized_var : s.zeroized.var = .v128L := rfl
@[simp] theorem State.zeroized_phase : s.zeroized.phase = .idle := rfl
@[simp] theorem State.zeroized_tlen : s.zeroized.tlen = .t0 := rfl
@[simp] theorem State.zeroized_errcode : s.zeroized.errcode = .none := rfl
@[simp] theorem State.zeroized_lasterr : s.zeroized.lasterr = .none := rfl
@[simp] theorem State.zeroized_pending : s.zeroized.pending = s.pending := rfl
@[simp] theorem State.zeroized_inputs : s.zeroized.inputs = s.inputs := rfl
@[simp] theorem State.zeroized_returned : s.zeroized.returned = s.returned := rfl
@[simp] theorem State.zeroized_draws : s.zeroized.draws = s.draws := rfl

@[simp] theorem State.writeStatus_S (v : Word32) : (s.writeStatus v).S = s.S := rfl
@[simp] theorem State.writeStatus_key (v : Word32) : (s.writeStatus v).key = s.key := rfl
@[simp] theorem State.writeStatus_nonce (v : Word32) : (s.writeStatus v).nonce = s.nonce := rfl
@[simp] theorem State.writeStatus_din (v : Word32) : (s.writeStatus v).din = s.din := rfl
@[simp] theorem State.writeStatus_dout (v : Word32) : (s.writeStatus v).dout = s.dout := rfl
@[simp] theorem State.writeStatus_tagin (v : Word32) : (s.writeStatus v).tagin = s.tagin := rfl
@[simp] theorem State.writeStatus_tagout (v : Word32) : (s.writeStatus v).tagout = s.tagout := rfl
@[simp] theorem State.writeStatus_adcnt (v : Word32) : (s.writeStatus v).adcnt = s.adcnt := rfl
@[simp] theorem State.writeStatus_msgcnt (v : Word32) : (s.writeStatus v).msgcnt = s.msgcnt := rfl
@[simp] theorem State.writeStatus_err (v : Word32) : (s.writeStatus v).err = if v.getLsbD 2 then false else s.err := rfl
@[simp] theorem State.writeStatus_bwe (v : Word32) : (s.writeStatus v).bwe = if v.getLsbD 3 then false else s.bwe := rfl
@[simp] theorem State.writeStatus_auth (v : Word32) : (s.writeStatus v).auth = s.auth := rfl
@[simp] theorem State.writeStatus_var (v : Word32) : (s.writeStatus v).var = s.var := rfl
@[simp] theorem State.writeStatus_phase (v : Word32) : (s.writeStatus v).phase = s.phase := rfl
@[simp] theorem State.writeStatus_tlen (v : Word32) : (s.writeStatus v).tlen = s.tlen := rfl
@[simp] theorem State.writeStatus_errcode (v : Word32) : (s.writeStatus v).errcode = if v.getLsbD 2 then .none else s.errcode := rfl
@[simp] theorem State.writeStatus_lasterr (v : Word32) : (s.writeStatus v).lasterr = s.lasterr := rfl
@[simp] theorem State.writeStatus_pending (v : Word32) : (s.writeStatus v).pending = s.pending := rfl
@[simp] theorem State.writeStatus_inputs (v : Word32) : (s.writeStatus v).inputs = s.inputs := rfl
@[simp] theorem State.writeStatus_returned (v : Word32) : (s.writeStatus v).returned = s.returned := rfl
@[simp] theorem State.writeStatus_draws (v : Word32) : (s.writeStatus v).draws = s.draws := rfl

@[simp] theorem State.afterRead_S (off : Nat) : (s.afterRead off).S = s.S := rfl
@[simp] theorem State.afterRead_key (off : Nat) : (s.afterRead off).key = s.key := rfl
@[simp] theorem State.afterRead_nonce (off : Nat) : (s.afterRead off).nonce = s.nonce := rfl
@[simp] theorem State.afterRead_din (off : Nat) : (s.afterRead off).din = s.din := rfl
@[simp] theorem State.afterRead_dout (off : Nat) : (s.afterRead off).dout = s.dout := rfl
@[simp] theorem State.afterRead_tagin (off : Nat) : (s.afterRead off).tagin = s.tagin := rfl
@[simp] theorem State.afterRead_tagout (off : Nat) : (s.afterRead off).tagout = s.tagout := rfl
@[simp] theorem State.afterRead_adcnt (off : Nat) : (s.afterRead off).adcnt = s.adcnt := rfl
@[simp] theorem State.afterRead_msgcnt (off : Nat) : (s.afterRead off).msgcnt = s.msgcnt := rfl
@[simp] theorem State.afterRead_err (off : Nat) : (s.afterRead off).err = s.err := rfl
@[simp] theorem State.afterRead_bwe (off : Nat) : (s.afterRead off).bwe = s.bwe := rfl
@[simp] theorem State.afterRead_auth (off : Nat) : (s.afterRead off).auth = s.auth := rfl
@[simp] theorem State.afterRead_var (off : Nat) : (s.afterRead off).var = s.var := rfl
@[simp] theorem State.afterRead_phase (off : Nat) : (s.afterRead off).phase = s.phase := rfl
@[simp] theorem State.afterRead_tlen (off : Nat) : (s.afterRead off).tlen = s.tlen := rfl
@[simp] theorem State.afterRead_errcode (off : Nat) : (s.afterRead off).errcode = s.errcode := rfl
@[simp] theorem State.afterRead_lasterr (off : Nat) : (s.afterRead off).lasterr = s.lasterr := rfl
@[simp] theorem State.afterRead_pending (off : Nat) : (s.afterRead off).pending = s.pending := rfl
@[simp] theorem State.afterRead_inputs (off : Nat) : (s.afterRead off).inputs = s.inputs := rfl
@[simp] theorem State.afterRead_returned (off : Nat) : (s.afterRead off).returned = s.hostRead off :: s.returned := rfl
@[simp] theorem State.afterRead_draws (off : Nat) : (s.afterRead off).draws = if s.isDraw off then s.draws + 1 else s.draws := rfl

@[simp] theorem State.verdict_S (d : Byte) : (s.verdict d).S = s.S := by unfold State.verdict; split <;> rfl
@[simp] theorem State.verdict_key (d : Byte) : (s.verdict d).key = s.key := by unfold State.verdict; split <;> rfl
@[simp] theorem State.verdict_nonce (d : Byte) : (s.verdict d).nonce = s.nonce := by unfold State.verdict; split <;> rfl
@[simp] theorem State.verdict_din (d : Byte) : (s.verdict d).din = s.din := by unfold State.verdict; split <;> rfl
@[simp] theorem State.verdict_dout (d : Byte) : (s.verdict d).dout = if d = 0x00 then s.dout else Data.zero := by
  unfold State.verdict; split <;> rfl
@[simp] theorem State.verdict_tagin (d : Byte) : (s.verdict d).tagin = s.tagin := by unfold State.verdict; split <;> rfl
@[simp] theorem State.verdict_tagout (d : Byte) : (s.verdict d).tagout = s.tagout := by unfold State.verdict; split <;> rfl
@[simp] theorem State.verdict_adcnt (d : Byte) : (s.verdict d).adcnt = s.adcnt := by unfold State.verdict; split <;> rfl
@[simp] theorem State.verdict_msgcnt (d : Byte) : (s.verdict d).msgcnt = s.msgcnt := by unfold State.verdict; split <;> rfl
@[simp] theorem State.verdict_err (d : Byte) : (s.verdict d).err = s.err := by unfold State.verdict; split <;> rfl
@[simp] theorem State.verdict_bwe (d : Byte) : (s.verdict d).bwe = s.bwe := by unfold State.verdict; split <;> rfl
@[simp] theorem State.verdict_auth (d : Byte) : (s.verdict d).auth = decide (d = 0x00) := by
  unfold State.verdict; split <;> simp_all
@[simp] theorem State.verdict_var (d : Byte) : (s.verdict d).var = s.var := by unfold State.verdict; split <;> rfl
@[simp] theorem State.verdict_phase (d : Byte) : (s.verdict d).phase = s.phase := by unfold State.verdict; split <;> rfl
@[simp] theorem State.verdict_tlen (d : Byte) : (s.verdict d).tlen = s.tlen := by unfold State.verdict; split <;> rfl
@[simp] theorem State.verdict_errcode (d : Byte) : (s.verdict d).errcode = s.errcode := by unfold State.verdict; split <;> rfl
@[simp] theorem State.verdict_lasterr (d : Byte) : (s.verdict d).lasterr = s.lasterr := by unfold State.verdict; split <;> rfl
@[simp] theorem State.verdict_pending (d : Byte) : (s.verdict d).pending = s.pending := by unfold State.verdict; split <;> rfl
@[simp] theorem State.verdict_inputs (d : Byte) : (s.verdict d).inputs = s.inputs := by unfold State.verdict; split <;> rfl
@[simp] theorem State.verdict_returned (d : Byte) : (s.verdict d).returned = s.returned := by unfold State.verdict; split <;> rfl
@[simp] theorem State.verdict_draws (d : Byte) : (s.verdict d).draws = s.draws := by unfold State.verdict; split <;> rfl

end Sys2Proof.Machine
end

