-- ==== Sys2Proof/Laws/Step.lean ====
section
/-! SUPPORT. What a command and a step can do, said once: every command is its state check followed by its effect, and a step that
gives a next state is one of the host's accesses, a reset or a core step. -/

namespace Sys2Proof.Machine

/-- The effect of a command whose state check passes, before `LASTERR <- 0`. -/
def effect : Instr → State → State
  | .aesrnd, s => s.roundOutput (aesRound s.din.lo s.din.hi)
  | .zeroize, s => s.zeroized
  | .verify, s => s.verdict (tagDifference s.tagin s.tagout (tagBytes s.tlen))
  | .init128L, s => s.startSession .v128L (init128L s.key128L s.nonce128L)
  | .abs128L, s => s.absorb (update128L s.S s.din.lo s.din.hi) 32 .ad
  | .absp128L n, s => s.absorb (update128L s.S (s.partial128L n).lo (s.partial128L n).hi) n.toNat .adPart
  | .enc128L, s => s.message (update128L s.S s.din.lo s.din.hi) (s.din.xor (z128 s.S)) 32 .msg
  | .encp128L n, s => s.message (update128L s.S (s.partial128L n).lo (s.partial128L n).hi)
      (padData ((s.partial128L n).xor (z128 s.S)).get n.toNat) n.toNat .msgPart
  | .dec128L, s => s.message (update128L s.S (s.din.xor (z128 s.S)).lo (s.din.xor (z128 s.S)).hi)
      (s.din.xor (z128 s.S)) 32 .msg
  | .decp128L n, s => s.message (update128L s.S (s.recovered128L n).lo (s.recovered128L n).hi) (s.recovered128L n)
      n.toNat .msgPart
  | .final128L t, s => s.finish (fin128L s.S s.adcnt s.msgcnt) t (tag128L (fin128L s.S s.adcnt s.msgcnt) t)
  | .init256, s => s.startSession .v256 (init256 s.key s.nonce)
  | .abs256, s => s.absorb (update256 s.S s.din.lo) 16 .ad
  | .absp256 n, s => s.absorb (update256 s.S (s.partial256 n)) n.toNat .adPart
  | .enc256, s => s.message (update256 s.S s.din.lo) ⟨s.din.lo.xor (z256 s.S), Block.zero⟩ 16 .msg
  | .encp256 n, s => s.message (update256 s.S (s.partial256 n)) (padData ((s.partial256 n).xor (z256 s.S)).get n.toNat)
      n.toNat .msgPart
  | .dec256, s => s.message (update256 s.S (s.din.lo.xor (z256 s.S))) ⟨s.din.lo.xor (z256 s.S), Block.zero⟩ 16 .msg
  | .decp256 n, s => s.message (update256 s.S (s.recovered256 n)) ⟨s.recovered256 n, Block.zero⟩ n.toNat .msgPart
  | .final256 t, s => s.finish (fin256 s.S s.adcnt s.msgcnt) t (tag256 (fin256 s.S s.adcnt s.msgcnt) t)

theorem complete_none (body : State → State) (s : State) : complete .none body s = .next (body s).succeed := rfl

theorem complete_error {e : ErrCode} (h : e ≠ .none) (body : State → State) (s : State) :
    complete e body s = .next (s.cmdError e) := by
  cases e <;> first | rfl | exact absurd rfl h

theorem complete_congr (e : ErrCode) {f g : State → State} {s : State} (h : f s = g s) : complete e f s = complete e g s := by
  cases e <;> first | rfl | exact congrArg (fun t => Host.Outcome.next t.succeed) h

theorem exec_eq_complete (i : Instr) (s : State) : exec i s = complete (stateCheck i s) (effect i) s := by
  cases i <;> simp only [exec, execAesrnd, execZeroize, execVerify, execInit128L, execAbs128L, execAbsp128L, execEnc128L, execEncp128L,
      execDec128L, execDecp128L, execFinal128L, execInit256, execAbs256, execAbsp256, execEnc256, execEncp256,
      execDec256, execDecp256, execFinal256] <;>
    exact complete_congr _ rfl

theorem exec_of_check_none {i : Instr} {s : State} (h : stateCheck i s = .none) :
    exec i s = .next (effect i s).succeed := by
  rw [exec_eq_complete, h, complete_none]

theorem exec_of_check_error {i : Instr} {s : State} (h : stateCheck i s ≠ .none) :
    exec i s = .next (s.cmdError (stateCheck i s)) := by
  rw [exec_eq_complete, complete_error h]

/-- Everything a command can do. -/
theorem exec_cases {i : Instr} {s t : State} (h : exec i s = .next t) :
    (stateCheck i s = .none ∧ t = (effect i s).succeed) ∨
      (stateCheck i s ≠ .none ∧ t = s.cmdError (stateCheck i s)) := by
  by_cases hc : stateCheck i s = .none
  · rw [exec_of_check_none hc] at h
    exact .inl ⟨hc, by simpa using h.symm⟩
  · rw [exec_of_check_error hc] at h
    exact .inr ⟨hc, by simpa using h.symm⟩

/-- Everything a core step can do. -/
theorem coreStep_cases {s t : State} (h : coreStep s = .next t) :
    (s.pending = none ∧ t = s) ∨
      (∃ w e, s.pending = some w ∧ decode w = .error e ∧ t = (s.cmdError e).clearPending) ∨
      (∃ w i u, s.pending = some w ∧ decode w = .ok i ∧ exec i s = .next u ∧ t = u.clearPending) := by
  unfold coreStep at h
  split at h
  · exact .inl ⟨‹_›, by simpa using h.symm⟩
  · rename_i w hw
    unfold execute at h
    split at h
    · rename_i u hu
      simp only [Host.Outcome.next.injEq] at h
      split at hu
      · rename_i e hd
        exact .inr (.inl ⟨w, e, hw, hd, by simp_all⟩)
      · rename_i i hd
        exact .inr (.inr ⟨w, i, u, hw, hd, hu, h.symm⟩)
    · cases h
    · cases h

/-- Everything a step can do. -/
theorem step_cases {s t : State} (h : step s = .next t) :
    (s.inputs = [] ∧ coreStep s = .next t) ∨
      (∃ rest, s.inputs = .core :: rest ∧ coreStep { s with inputs := rest } = .next t) ∨
      (∃ rest off size, s.inputs = .read off size :: rest ∧ admitted off size = true ∧
        t = State.afterRead { s with inputs := rest } off) ∨
      (∃ rest off size v, s.inputs = .write off size v :: rest ∧ admitted off size = true ∧
        t = State.hostWrite { s with inputs := rest } off v) ∨
      (∃ rest, s.inputs = .reset :: rest ∧ t = State.clearAll { s with inputs := rest }) := by
  unfold step at h
  split at h
  · exact .inl ⟨‹_›, h⟩
  · rename_i e rest he
    cases e with
    | read off size =>
      simp only [inputStep, readStep] at h
      split at h
      · exact .inr (.inr (.inl ⟨rest, off, size, he, ‹_›, by simpa using h.symm⟩))
      · cases h
    | write off size v =>
      simp only [inputStep, writeStep] at h
      split at h
      · exact .inr (.inr (.inr (.inl ⟨rest, off, size, v, he, ‹_›, by simpa using h.symm⟩)))
      · cases h
    | core => exact .inr (.inl ⟨rest, he, h⟩)
    | reset => exact .inr (.inr (.inr (.inr ⟨rest, he, by simpa [inputStep] using h.symm⟩)))

end Sys2Proof.Machine
end

