-- ==== Sys2Proof/Laws/Procedures.lean ====
section
/-! SUPPORT. What the lines of a host program can do (spec/30_encoding.md R112), said once: a command line completes its command and adds
to what the host has read, and nothing a command does depends on that or on the latch. -/

namespace Sys2Proof.Machine

/-- `s` with another latch and another record of the host's reads. -/
def State.withLatch (p : Option Word32) (r : List Word32) (s : State) : State := { s with pending := p, returned := r }

@[simp] theorem State.withLatch_pending (p : Option Word32) (r : List Word32) (s : State) : (s.withLatch p r).pending = p := rfl

@[simp] theorem State.withLatch_returned (p : Option Word32) (r : List Word32) (s : State) :
    (s.withLatch p r).returned = r := rfl

@[simp] theorem State.withLatch_withLatch (p q : Option Word32) (r r' : List Word32) (s : State) :
    (s.withLatch p r).withLatch q r' = s.withLatch q r' := rfl

@[simp] theorem State.withLatch_self (s : State) : s.withLatch s.pending s.returned = s := rfl

/-! ### A command reads neither the latch nor what the host has read -/

theorem stateCheck_withLatch (i : Instr) (s : State) (p : Option Word32) (r : List Word32) :
    stateCheck i (s.withLatch p r) = stateCheck i s := by cases i <;> rfl

theorem verdict_withLatch (s : State) (p : Option Word32) (r : List Word32) (d : Byte) :
    (s.withLatch p r).verdict d = (s.verdict d).withLatch p r := by
  unfold State.verdict
  split <;> rfl

theorem effect_withLatch (i : Instr) (s : State) (p : Option Word32) (r : List Word32) :
    effect i (s.withLatch p r) = (effect i s).withLatch p r := by
  cases i
  case verify => exact verdict_withLatch s p r _
  all_goals rfl

theorem execute_withLatch {w : Word32} {s t : State} (h : execute w s = .next t) (p : Option Word32) (r : List Word32) :
    execute w (s.withLatch p r) = .next (t.withLatch p r) := by
  unfold execute at h ⊢
  split at h
  · cases h
    rfl
  · rename_i i _
    rcases exec_cases h with ⟨hc, rfl⟩ | ⟨hc, rfl⟩
    · rw [exec_of_check_none (by rwa [stateCheck_withLatch]), effect_withLatch]
      rfl
    · rw [exec_of_check_error (by rwa [stateCheck_withLatch]), stateCheck_withLatch]
      rfl

/-- No word's completion changes the record of reads. -/
theorem execute_returned {w : Word32} {s t : State} (h : execute w s = .next t) : t.returned = s.returned := by
  have h' := execute_withLatch h s.pending s.returned
  rw [State.withLatch_self, h] at h'
  rw [Host.Outcome.next.inj h', State.withLatch_returned]

/-- R340: every word completes. -/
theorem execute_completes (w : Word32) (s : State) : ∃ t, execute w s = .next t := by
  unfold execute
  split
  · exact ⟨_, rfl⟩
  · rename_i i _
    by_cases hc : stateCheck i s = .none
    · exact ⟨_, exec_of_check_none hc⟩
    · exact ⟨_, exec_of_check_error hc⟩

/-! ### The core's turn -/

theorem coreTurn_of_idle {s : State} (h : s.pending = none) : coreTurn s = s := by simp [coreTurn, coreStep, h]

theorem coreTurn_of_pending {s t : State} {w : Word32} (hp : s.pending = some w) (h : execute w s = .next t) :
    coreTurn s = t.withLatch none s.returned := by
  rw [← execute_returned h]
  simp [coreTurn, coreStep, hp, h, State.clearPending, State.withLatch]

theorem coreTurn_pending (s : State) : (coreTurn s).pending = none := by
  cases hp : s.pending with
  | none => rw [coreTurn_of_idle hp, hp]
  | some w =>
    obtain ⟨t, ht⟩ := execute_completes w s
    rw [coreTurn_of_pending hp ht, State.withLatch_pending]

/-! ### Reads -/

/-- `STATUS` always reads true, and its read takes no draw. -/
theorem rd_status (s : State) : rd 0x008 s = (statusWord s, s.withLatch s.pending (statusWord s :: s.returned)) := by
  have h : s.isDraw 0x008 = false := by simp [State.isDraw, regAt]
  simp [rd, State.hostRead, State.afterRead, h, State.readReg, regAt, State.withLatch]

/-- With no command pending a read gives the register and takes no draw. -/
theorem rd_of_idle {s : State} (h : s.pending = none) (off : Nat) :
    rd off s = (s.readReg (regAt off), s.withLatch none (s.readReg (regAt off) :: s.returned)) := by
  have hd : s.isDraw off = false := by simp [State.isDraw, State.busy, h]
  simp [rd, State.hostRead, State.afterRead, hd, State.withLatch, h]

theorem readReg_withLatch {s : State} (h : s.pending = none) (r : List Word32) (x : Reg) :
    (s.withLatch none r).readReg x = s.readReg x := by
  rw [State.withLatch, ← h]
  cases x <;> rfl

/-- R112 `RDOUT`, `RDTAG` with no command pending: the words' bytes, and only the record of reads grows. -/
theorem readBytes_of_idle {s : State} (h : s.pending = none) (base k : Nat) :
    ∃ r : List Word32, readBytes base k s =
      ((List.range k).flatMap fun j => (List.range 4).map (wordByte (s.readReg (regAt (base + 4 * j)))),
        s.withLatch none (r ++ s.returned)) := by
  induction k with
  | zero => exact ⟨[], by simp [readBytes, ← h]⟩
  | succ k ih =>
    obtain ⟨r, hr⟩ := ih
    refine ⟨s.readReg (regAt (base + 4 * k)) :: r, ?_⟩
    unfold readBytes at hr ⊢
    rw [List.range_succ (n := k), List.foldl_append, hr]
    simp only [List.foldl_cons, List.foldl_nil, List.flatMap_append, List.flatMap_cons, List.flatMap_nil, List.append_nil,
      rd_of_idle (State.withLatch_pending none _ s), readReg_withLatch h, State.withLatch_withLatch,
      State.withLatch_returned, List.cons_append]

/-! ### `POLL` and the command line -/

theorem statusWord_bit0 (s : State) : (statusWord s).getLsbD 0 = s.busy := by
  rw [statusWord, BitVec.getLsbD_append]
  simp

theorem poll_succ (n : Nat) (s : State) : poll (n + 1) s =
    if s.pending = none then (statusWord s, s.withLatch none (statusWord s :: s.returned))
    else poll n (s.withLatch s.pending (statusWord s :: s.returned)) := by
  simp only [poll, rd_status, statusWord_bit0, State.busy]
  cases hp : s.pending <;> simp

/-- R112: the loop ends with `s[0] = 0`. -/
theorem poll_ends (n : Nat) (s : State) : (poll n s).1.getLsbD 0 = false := by
  induction n generalizing s with
  | zero => rw [poll, rd_status, statusWord_bit0, State.busy, coreTurn_pending, Option.isSome_none]
  | succ n ih =>
    rw [poll_succ]
    split
    · rw [statusWord_bit0, State.busy, ‹s.pending = none›, Option.isSome_none]
    · exact ih _

/-- With nothing pending the first read ends the loop. -/
theorem poll_of_idle {s : State} (h : s.pending = none) (n : Nat) :
    poll n s = (statusWord s, s.withLatch none (statusWord s :: s.returned)) := by
  cases n with
  | zero => rw [poll, coreTurn_of_idle h, rd_status, h]
  | succ n => rw [poll_succ, if_pos h]

/-- A pending command: whatever the schedule, it completes once, from the state as it was, and only the record of reads grows
besides. -/
theorem poll_of_pending {s t : State} {w : Word32} (hp : s.pending = some w) (h : execute w s = .next t) (n : Nat) :
    ∃ r : List Word32, (poll n s).2 = t.withLatch none (r ++ s.returned) := by
  induction n generalizing s t with
  | zero =>
    refine ⟨[statusWord (t.withLatch none s.returned)], ?_⟩
    rw [poll, coreTurn_of_pending hp h, rd_status]
    rfl
  | succ n ih =>
    obtain ⟨r, hr⟩ := ih (s := s.withLatch s.pending (statusWord s :: s.returned)) hp (execute_withLatch h _ _)
    refine ⟨r ++ [statusWord s], ?_⟩
    rw [poll_succ, if_neg (by simp [hp]), hr]
    simp

/-- R112 `<command>` with nothing pending: what its word does to the state, and a longer record of reads. -/
theorem issue_of_idle {s t : State} {i : Instr} (wait : State → Nat) (h : s.pending = none)
    (he : execute (encode i) s = .next t) :
    ∃ r : List Word32, issue wait i s = t.withLatch none (r ++ s.returned) := by
  have hw : s.hostWrite 0x004 (encode i) = s.withLatch (some (encode i)) s.returned := by
    simp [State.hostWrite, State.busy, h, regAt, State.writeReg, State.withLatch]
  obtain ⟨r, hr⟩ := poll_of_pending (s := s.withLatch (some (encode i)) s.returned) rfl (execute_withLatch he _ _)
    (wait (s.withLatch (some (encode i)) s.returned))
  exact ⟨r, by simpa [issue, hw] using hr⟩

end Sys2Proof.Machine
end

