-- ==== Sys2Proof/Tests/Slice0.lean ====
section
/-! SUPPORT. Tests of one step on small states, with expected values from spec/95_test_vectors.md and the examples of the rules, and
for each statement with hypotheses a witness that meets them. -/

namespace Sys2Proof.Tests

open Sys2Proof Sys2Proof.Machine

-- One theorem at a time: many evaluations side by side hold a thread's stack each.
set_option Elab.async false

/-! ### Helpers -/

/-- The word written as 32 hex digits, `w[0]` first. -/
def hex (n : Nat) : Block := Block.ofFn fun i => BitVec.ofNat 8 (n >>> (8 * (15 - i)))

/-- The word of sixteen equal bytes. -/
def same (b : Byte) : Block := Block.ofFn fun _ => b

/-- R200, example: the state words after `INIT.128L` with the published key and nonce. -/
def lanes128L : Lanes :=
  ⟨hex 0xa36c2a29deeb9ea628eb97a833df19c1, hex 0xcd287d5136803df4b8411193e296d2a6,
   hex 0xe5db039fdfe500a2525c3ec4849eaee5, hex 0x4d739cb1dc383e6811f172ba1952e820,
   hex 0x63af41c210d2a876b4c70df9cfd993d2, hex 0x65554f1f2e20564fd53d4c558ef48f23,
   hex 0x49bb984b33b33dbb43b12c58de4723c8, hex 0xd4fa2a42ef1b1c58cfe208c9bbd7dfc5⟩

/-- R240, example: the state words after `INIT.256` with the published key and nonce. -/
def lanes256 : Lanes :=
  ⟨hex 0xfad23649d2643a7592ae8ee88674b6e9, hex 0xcfdfe091f691349e962d7eccfe83a614,
   hex 0x5a1bb5099b262f83d0c50effe6b38a4a, hex 0x5b19bd17da585168fd4dccc3c826426f,
   hex 0x60fa43ae95df84551188b633318e840a, hex 0x8073d5e6303d95a69b8db0281d8b9262, Block.zero, Block.zero⟩

/-- 95, "after INIT(TV128)". -/
def session128L : State := { State.reset with S := lanes128L, phase := .ad }

/-- 95, "after INIT(TV256)". -/
def session256 : State := { State.reset with S := lanes256, var := .v256, phase := .ad }

/-- The published key and nonce loaded after reset. -/
def loaded : State := { State.reset with
  key := ⟨hex 0x10010000000000000000000000000000, Block.zero⟩
  nonce := ⟨hex 0x10000200000000000000000000000000, Block.zero⟩ }

/-- Whether the very next step, which completes the word `w`, gives a state of which `p` holds. -/
def after (s : State) (w : Nat) (p : State → Bool) : Bool :=
  match step (s.withFetchWord 32 w) with
  | .next t => p t
  | _ => false

/-! ### Well-formedness: each check refuses -/

theorem test_wellFormed_refuses_count_0_128L : (Instr.absp128L 0).wellFormed = false := by decide

theorem test_wellFormed_refuses_count_0_256 : (Instr.encp256 0).wellFormed = false := by decide

theorem test_wellFormed_refuses_count_16_256 : (Instr.decp256 16).wellFormed = false := by decide

theorem test_wellFormed_bounds : (Instr.encp128L 1).wellFormed = true ∧ (Instr.decp128L 31).wellFormed = true ∧
    (Instr.absp256 1).wellFormed = true ∧ (Instr.absp256 15).wellFormed = true := by decide

/-! ### Decoding: every constructor's word, written out from R107 (bit 31 first) -/

theorem test_decode_plain :
    decode 0b00000000000000000000000000000001#32 = .ok .aesrnd ∧
    decode 0b00000000000000000000000000000010#32 = .ok .zeroize ∧
    decode 0b00000000000000000000000000000011#32 = .ok .verify := by decide

theorem test_decode_128L :
    decode 0b00000000000000000000000000010000#32 = .ok .init128L ∧
    decode 0b00000000000000000000000000010001#32 = .ok .abs128L ∧
    decode 0b00000000000010000000000000010010#32 = .ok (.absp128L 8) ∧
    decode 0b00000000000000000000000000010011#32 = .ok .enc128L ∧
    decode 0b00000000000111110000000000010100#32 = .ok (.encp128L 31) ∧
    decode 0b00000000000000000000000000010101#32 = .ok .dec128L ∧
    decode 0b00000000000000010000000000010110#32 = .ok (.decp128L 1) ∧
    decode 0b00000000000000000000001000010111#32 = .ok (.final128L .t16) := by decide

theorem test_decode_256 :
    decode 0b00000000000000000000000100010000#32 = .ok .init256 ∧
    decode 0b00000000000000000000000100010001#32 = .ok .abs256 ∧
    decode 0b00000000000011110000000100010010#32 = .ok (.absp256 15) ∧
    decode 0b00000000000000000000000100010011#32 = .ok .enc256 ∧
    decode 0b00000000000011100000000100010100#32 = .ok (.encp256 14) ∧
    decode 0b00000000000000000000000100010101#32 = .ok .dec256 ∧
    decode 0b00000000000011100000000100010110#32 = .ok (.decp256 14) ∧
    decode 0b00000000000000000000010100010111#32 = .ok (.final256 .t32) := by decide

/-- 95 section 3.6: the words of each error, in the table's order. -/
theorem test_decode_illegalOp :
    decode 0x00000000 = .error .illegalOp ∧ decode 0xFFFFFFFF = .error .illegalOp ∧
    decode 0x00000004 = .error .illegalOp ∧ decode 0x0000000F = .error .illegalOp ∧
    decode 0x00000018 = .error .illegalOp ∧ decode 0x000000FF = .error .illegalOp := by decide

theorem test_decode_reservedField :
    decode 0x00010001 = .error .reservedField ∧ decode 0x80000001 = .error .reservedField ∧
    decode 0x00000811 = .error .reservedField ∧ decode 0x00000F17 = .error .reservedField ∧
    decode 0x00200012 = .error .reservedField ∧ decode 0x00200014 = .error .reservedField ∧
    decode 0x00000210 = .error .reservedField ∧ decode 0x00010011 = .error .reservedField ∧
    decode 0x00010017 = .error .reservedField ∧ decode 0x00000103 = .error .reservedField ∧
    decode 0x00000202 = .error .reservedField := by decide

theorem test_decode_badField :
    decode 0x00000617 = .error .badTagsize ∧ decode 0x00000717 = .error .badTagsize ∧
    decode 0x00000012 = .error .badCount ∧ decode 0x00100112 = .error .badCount ∧
    decode 0x001F0116 = .error .badCount := by decide

/-- R107: no word is two rows', by match and mask alone. -/
theorem test_opcode_rows_disjoint :
    opcodeMap.Pairwise fun r q => r.matchBits &&& q.mask &&& r.mask ≠ q.matchBits &&& r.mask &&& q.mask := by decide

theorem test_decodeTableWord : decodeTableWord 32 0x000E0116 = some (.decp256 14) ∧ decodeTableWord 32 0x12 = none := by
  decide

/-! ### The round unit and the update -/

/-- R144 spot values. -/
theorem test_sbox : sbox 0x00 = 0x63 ∧ sbox 0x01 = 0x7c ∧ sbox 0x53 = 0xed ∧ sbox 0xff = 0x16 := by decide

/-- 95 A-7. -/
theorem test_shiftRows :
    shiftRows (hex 0x000102030405060708090a0b0c0d0e0f) = hex 0x00050a0f04090e03080d02070c01060b := by decide +kernel

/-- 95 section 3.1, MixColumns on the columns `c6c6c6c6`, `d4d4d4d5`, `2d26314c`, `db135345`. -/
theorem test_mixColumns :
    mixColumns (hex 0xc6c6c6c6d4d4d4d52d26314cdb135345) = hex 0xc6c6c6c6d5d5d7d64d7ebdf88e4da1bc := by decide +kernel

/-- 95 A-6. -/
theorem test_aesRound_constants : aesRound C0 C1 = hex 0x9097da4ef43229b71b27ec7eccb612bc := by decide +kernel

/-- R178: an in-place update would give another `S'[1]`. -/
theorem test_update128L :
    update128L ⟨same 0, same 1, same 2, same 3, same 4, same 5, same 6, same 7⟩
      (hex 0x000102030405060708090a0b0c0d0e0f) (hex 0x101112131415161718191a1b1c1d1e1f) =
    ⟨hex 0xc5c4c7c6c1c0c3c2cdcccfcec9c8cbca, same 0x62, same 0x7e, same 0x74,
      hex 0x6f6e6d6c6b6a69686766656463626160, same 0xf7, same 0x6d, same 0x68⟩ := by decide +kernel

/-- R179. -/
theorem test_update256 :
    update256 ⟨same 0, same 1, same 2, same 3, same 4, same 5, Block.zero, Block.zero⟩
      (hex 0x000102030405060708090a0b0c0d0e0f) =
    ⟨hex 0x6b6a69686f6e6d6c6362616067666564, same 0x62, same 0x7e, same 0x74, same 0x7f, same 0xf7, Block.zero,
      Block.zero⟩ := by decide +kernel

/-- R177. -/
theorem test_lenBlock : lenBlock 8 32 = hex 0x40000000000000000001000000000000 ∧
    lenBlock 0x1FFFFFFFFFFFFFFF 1 = hex 0xf8ffffffffffffff0800000000000000 := by decide +kernel

/-! ### The commands, one step each -/

/-- 95 X-1. -/
theorem test_aesrnd : after { State.reset with
      din := ⟨hex 0x000102030405060708090a0b0c0d0e0f, hex 0x101112131415161718191a1b1c1d1e1f⟩ } 0x00000001
    (fun t => t.dout == ⟨hex 0x7a7b4e5638782546a8c0477a3b813f43, Block.zero⟩ && statusWord t == 0x00000000) = true := by
  decide +kernel

/-- 95 X-4: legal in a session, which it does not disturb. -/
theorem test_aesrnd_in_session :
    after session128L 0x00000001 (fun t => t.dout.lo == same 0x63 && statusWord t == 0x00000100 && t.S == lanes128L) =
      true := by decide +kernel

/-- 95 Z-2: `ERR`, `ERRCODE` and `LASTERR` cleared. -/
theorem test_zeroize :
    after { loaded with err := true, errcode := .sequence, lasterr := .badTagsize, S := lanes128L } 0x00000002
      (fun t => statusWord t == 0x00000000 && t == { State.reset with inputs := t.inputs }) = true := by decide +kernel

/-- 95 Z-4: nothing cleared. -/
theorem test_zeroize_bad_word :
    after loaded 0x00000202 (fun t => statusWord t == 0x02020004 && t.key == loaded.key) = true := by decide +kernel

/-- 95 V-1. -/
theorem test_verify_match : after { session128L with
      phase := .done, tlen := .t16, tagout := ⟨hex 0xc2b879a67def9d74e6c14f708bbcc9b4, Block.zero⟩,
      tagin := ⟨hex 0xc2b879a67def9d74e6c14f708bbcc9b4, same 0xee⟩ } 0x00000003
    (fun t => statusWord t == 0x00001510) = true := by decide +kernel

/-- 95 V-2: a mismatch in the last byte; not an error. -/
theorem test_verify_mismatch : after { session128L with
      phase := .done, tlen := .t16, tagout := ⟨hex 0xc2b879a67def9d74e6c14f708bbcc9b4, Block.zero⟩,
      tagin := ⟨hex 0xc2b879a67def9d74e6c14f708bbcc9b5, Block.zero⟩, dout := ⟨same 1, same 2⟩ } 0x00000003
    (fun t => statusWord t == 0x00001500 && t.dout == Data.zero) = true := by decide +kernel

/-- R200, example: the word `S[4]`. -/
theorem test_init128L_word :
    (init128L (hex 0x10010000000000000000000000000000) (hex 0x10000200000000000000000000000000)).s4 = lanes128L.s4 := by
  decide +kernel

/-- 95 I-1, I-2: from any phase. -/
theorem test_init128L_status : after { loaded with phase := .done, var := .v256, auth := true, tlen := .t32 } 0x00000010
    (fun t => statusWord t == 0x00000100 && t.adcnt == 0) = true := by decide +kernel

/-- 95 B-1. -/
theorem test_abs128L : after { session128L with
      din := ⟨hex 0x000102030405060708090a0b0c0d0e0f, hex 0x101112131415161718191a1b1c1d1e1f⟩ } 0x00000011
    (fun t => t.S.s0 == hex 0x4f965e3a7e8f8c85b22a7619c6008ffb && t.S.s4 == hex 0x5024f5ddb866f7412860fd2bac2cae64 &&
      t.adcnt == 32 && statusWord t == 0x00000100) = true := by decide +kernel

/-- 95 N-1. -/
theorem test_abs128L_length : after { session128L with adcnt := 0x1FFFFFFFFFFFFFE0 } 0x00000011
    (fun t => statusWord t == 0x07070104 && t.adcnt == 0x1FFFFFFFFFFFFFE0) = true := by decide +kernel

/-- 95 N-2: the largest AD length. -/
theorem test_absp128L_limit : after { session128L with adcnt := 0x1FFFFFFFFFFFFFE0 } 0x001F0012
    (fun t => statusWord t == 0x00000200 && t.hostRead 0x010 == 0xFFFFFFFF && t.hostRead 0x014 == 0x1FFFFFFF) = true := by
  decide +kernel

/-- 95 B-3: a second partial AD block. -/
theorem test_absp128L_twice : after { session128L with phase := .adPart, adcnt := 1 } 0x00030012
    (fun t => statusWord t == 0x06060204 && t.adcnt == 1) = true := by decide +kernel

/-- 95 E-1. -/
theorem test_enc128L : after session128L 0x00000013
    (fun t => t.dout == ⟨hex 0xc1c0e58bd913006feba00f4b3cc3594e, hex 0xc03444c2d2d64af5c4c17ad9902d2206⟩ &&
      statusWord t == 0x00000300) = true := by decide +kernel

/-- 95 Q-2's kind: a 128L command in a 256 session. -/
theorem test_enc128L_variant : after session256 0x00000013 (fun t => statusWord t == 0x05050124) = true := by
  decide +kernel

/-- 95 E-4: the ignored bytes hold 0xff. -/
theorem test_encp128L : after { session128L with din := ⟨hex 0x0001020304ffffffffffffffffffffff, same 0xff⟩ } 0x00050014
    (fun t => t.dout == ⟨hex 0xc1c1e788dd0000000000000000000000, Block.zero⟩ && t.msgcnt == 5 &&
      statusWord t == 0x00000400) = true := by decide +kernel

/-- 95 N-3. -/
theorem test_encp128L_length : after { session128L with msgcnt := 0x1FFFFFFFFFFFFFFF } 0x00010014
    (fun t => statusWord t == 0x07070104) = true := by decide +kernel

/-- 95 D-1. -/
theorem test_dec128L : after { session128L with
      din := ⟨hex 0xc1c0e58bd913006feba00f4b3cc3594e, hex 0xc03444c2d2d64af5c4c17ad9902d2206⟩ } 0x00000015
    (fun t => t.dout == Data.zero && t.msgcnt == 32) = true := by decide +kernel

/-- R206, example: the ignored bytes hold 0xff; `DECP` feeds back what `ENCP` of zeros does. -/
theorem test_decp128L : after { session128L with din := ⟨hex 0xc1c0e58bd913006feba00f4b3cc3594e, same 0xff⟩ } 0x00100016
    (fun t => t.dout == Data.zero && t.S == update128L lanes128L Block.zero Block.zero) = true := by decide +kernel

/-- 95 F-1. -/
theorem test_final128L : after session128L 0x00000217
    (fun t => t.tagout == ⟨hex 0xc2b879a67def9d74e6c14f708bbcc9b4, Block.zero⟩) = true := by decide +kernel

/-- 95 F-3: no tag; F-4's kind: a second `FINAL`. -/
theorem test_final128L_status : after session128L 0x00000017 (fun t => statusWord t == 0x00000500) = true ∧
    after { session128L with phase := .done, tlen := .t16 } 0x00000217 (fun t => statusWord t == 0x06061504) = true := by
  decide +kernel

/-- R240, example: the word `S[5]`. -/
theorem test_init256_word : (init256 loaded.key loaded.nonce).s5 = lanes256.s5 := by decide +kernel

/-- 95 I-3. -/
theorem test_init256_status : after loaded 0x00000110 (fun t => statusWord t == 0x00000120) = true := by decide +kernel

/-- 95 B-4. -/
theorem test_abs256 : after { session256 with din := ⟨hex 0x000102030405060708090a0b0c0d0e0f, same 0xff⟩ } 0x00000111
    (fun t => t.S.s0 == hex 0x5fc8ee89f880726bd2e8c7a94d929bdc && t.S.s1 == hex 0x57419e80c51eb4863dcf15aba9b6fac0 &&
      t.adcnt == 16) = true := by decide +kernel

/-- 95 N-4. -/
theorem test_abs256_length : after { session256 with adcnt := 0x1FFFFFFFFFFFFFF0 } 0x00000111
    (fun t => statusWord t == 0x07070124) = true := by decide +kernel

/-- 95 B-5. -/
theorem test_absp256 : after session256 0x00080112 (fun t => t.adcnt == 8 && statusWord t == 0x00000220) = true := by
  decide +kernel

/-- 95 Q-4: `BAD_COUNT` before `VARIANT`. -/
theorem test_absp256_badCount : after { session128L with phase := .msg } 0x00140112
    (fun t => statusWord t == 0x04040304) = true := by decide +kernel

/-- 95 E-8: `DIN[16:32]` is not read. -/
theorem test_enc256 : after { session256 with din := ⟨Block.zero, same 0xff⟩ } 0x00000113
    (fun t => t.dout == ⟨hex 0x754fc3d8c973246dcc6d741412a4b236, Block.zero⟩ && statusWord t == 0x00000320) = true := by
  decide +kernel

/-- 95 Q-1. -/
theorem test_enc256_variant : after session128L 0x00000113 (fun t => statusWord t == 0x05050104) = true := by
  decide +kernel

/-- R244, example: the rest of `DIN` holds 0xee. -/
theorem test_encp256 : after { session256 with din := ⟨hex 0x000102030405060708090a0b0c0deeee, same 0xee⟩ } 0x000E0114
    (fun t => t.dout == ⟨hex 0x754ec1dbcd76226ac4647e1f1ea90000, Block.zero⟩ && t.msgcnt == 14) = true := by
  decide +kernel

/-- R245, example: `DIN[16:32]` holds 0xff. -/
theorem test_dec256 : after { session256 with din := ⟨hex 0x754fc3d8c973246dcc6d741412a4b236, same 0xff⟩ } 0x00000115
    (fun t => t.dout == Data.zero && statusWord t == 0x00000320) = true := by decide +kernel

/-- 95 D-5. -/
theorem test_decp256 : after { session256 with din := ⟨hex 0x754ec1dbcd76226ac4647e1f1ea9ffff, same 0xff⟩ } 0x000E0116
    (fun t => t.dout == ⟨hex 0x000102030405060708090a0b0c0d0000, Block.zero⟩ && statusWord t == 0x00000420) = true := by
  decide +kernel

/-- 95 F-6. -/
theorem test_final256 : after session256 0x00000317
    (fun t => t.tagout == ⟨hex 0xe3def978a0f054afd1e761d7553afba3, Block.zero⟩) = true := by decide +kernel

/-- 95 F-8. -/
theorem test_final256_status : after session256 0x00000117
    (fun t => statusWord t == 0x00000520 && t.tagout == Data.zero) = true := by decide +kernel

/-! ### The register window -/

/-- 95 M-1, M-2. -/
theorem test_hostRead_reset : State.reset.hostRead 0x000 = 0xAE610701 ∧ State.reset.hostRead 0x004 = 0 ∧
    State.reset.hostRead 0x00C = 0 ∧ State.reset.hostRead 0x1C0 = 0 := by decide

/-- 95 M-3, M-4: `KEY` reads 0, `NONCE` word 0 reads back. -/
theorem test_hostRead_key_nonce : loaded.hostRead 0x100 = 0 ∧ loaded.hostRead 0x120 = 0x00020010 := by decide +kernel

/-- R72, example: the key bytes `10 01 00 00` are written as 0x00000110. -/
theorem test_hostWrite_key : (State.reset.hostWrite 0x100 0x00000110).key = loaded.key := by decide +kernel

/-- 95 M-11: a write while busy is dropped and sets `BWE`. -/
theorem test_write_while_busy :
    statusWord (State.reset.hostWrite 0x004 0x10) = 0x00000001 ∧
    ((State.reset.hostWrite 0x004 0x10).hostWrite 0x140 0x11111111).din = Data.zero ∧
    after { State.reset with bwe := true } 0x10 (fun t => statusWord t == 0x00000108) = true := by decide +kernel

/-- 95 M-12, M-9: `CLRERR` clears `BWE`; `BUSY` is read-only. -/
theorem test_clrerr : statusWord (State.hostWrite { session128L with bwe := true } 0x008 0x0000000C) = 0x00000100 ∧
    State.reset.hostWrite 0x008 0x00000001 = State.reset := by decide +kernel

/-- 95 M-10. -/
theorem test_refused :
    readStep 0x000 2 State.reset = .fault (.busRefused 0x000 2) ∧
    readStep 0x002 4 State.reset = .fault (.busRefused 0x002 4) ∧
    readStep 0x200 4 State.reset = .fault (.busRefused 0x200 4) := ⟨rfl, rfl, rfl⟩

/-- 95 section 3.6: from reset a failing word leaves its code in both fields, here codes 1 and 3. -/
theorem test_error_codes : after State.reset 0x00000000 (fun t => statusWord t == 0x01010004) = true ∧
    after State.reset 0x00000617 (fun t => statusWord t == 0x03030004) = true := by decide +kernel

/-- R112 `POLL`: two reads find `BUSY = 1`, the third `BUSY = 0` (R45; the command is P4's first line of 95). -/
theorem test_poll : (poll 2 { State.reset with pending := some 0x00000011 }).1 = 0x06060004 ∧
    (poll 2 { State.reset with pending := some 0x00000011 }).2.returned = [0x06060004, 0x00000001, 0x00000001] := by
  decide +kernel

/-- R369: each word of `RDOUT` while busy takes a draw of its own. -/
theorem test_readBytes_busy : (readBytes 0x160 2 { State.reset with pending := some 0x00000011 }).2.returned =
    [Config.busyRead 1, Config.busyRead 0] := rfl

/-- R111, examples. -/
theorem test_assemble : assemble .absp (some .v128L) (some 8) = some 0x00080012 ∧
    assemble .final (some .v128L) (some 8) = none ∧ assemble .absp (some .v256) (some 16) = none := by decide

/-- R371: the AES rounds of the table. -/
theorem test_aesRounds : aesRounds .init128L = 80 ∧ aesRounds .init256 = 96 ∧ aesRounds (.final128L .t0) = 56 ∧
    aesRounds (.final256 .t0) = 42 ∧ aesRounds .enc128L = 8 ∧ aesRounds .dec256 = 6 ∧ aesRounds .aesrnd = 1 := by decide

/-! ### Witnesses: the hypotheses of each statement that has some can be met -/

theorem witness_DecodeOfEncode : (Instr.absp128L 31).wellFormed = true ∧ (Instr.absp256 1).wellFormed = true := by decide

theorem witness_EncodeOfDecode : decode 0x001F0012 = .ok (.absp128L 31) ∧ decode 0x000F0112 = .ok (.absp256 15) := by
  decide

theorem witness_OpcodeMapDecides :
    (∀ r ∈ opcodeMap, r ∈ opcodeMap) ∧ opcodeMap.length = 19 ∧ decode 0x00000117 = .ok (.final256 .t0) := by
  exact ⟨fun _ h => h, by decide, by decide⟩

theorem witness_IllegalOpcodeFails :
    (0x18 : Nat) ∉ [0x01, 0x02, 0x03, 0x10, 0x11, 0x12, 0x13, 0x14, 0x15, 0x16, 0x17] := by decide

theorem witness_ReservedFieldFails : decode 0x00200012 = .error .reservedField := by decide

theorem witness_BadFieldValueFails : decode 0x00000717 = .error .badTagsize ∧ decode 0x00100112 = .error .badCount := by
  decide

theorem witness_AssembledWordsDecode : assemble .absp (some .v128L) (some 31) = some 0x001F0012 ∧
    assemble .decp (some .v256) (some 15) = some 0x000F0116 := by decide

theorem witness_StepRunsPendingCommand :
    (∃ s : State, s.pending = some 0x00000001 ∧ s.inputs = []) ∧
    (∃ s : State, s.pending = some 0x00000001 ∧ s.inputs = .core :: [.reset]) ∧ decode 0x00000001 = .ok .aesrnd :=
  ⟨⟨{ State.reset with pending := some 1 }, rfl, rfl⟩,
    ⟨{ State.reset with pending := some 1, inputs := [.core, .reset] }, rfl, rfl⟩, by decide⟩

theorem witness_StepReportsUndecodableWord :
    (∃ s : State, s.inputs = .core :: [] ∧ s.pending = some 0x00000000) ∧
    (∃ s : State, s.inputs = .core :: [] ∧ s.pending = none) ∧ decode 0x00000000 = .error .illegalOp :=
  ⟨⟨{ State.reset with pending := some 0, inputs := [.core] }, rfl, rfl⟩,
    ⟨{ State.reset with inputs := [.core] }, rfl, rfl⟩, by decide⟩

/-- An error of decoding and one of a state check. -/
theorem witness_ErrorChangesOnlyStatus :
    (∃ s t : State, execute 0x00000000 s = .next t ∧ t.lasterr ≠ .none ∧ s.pending = some 0x00000000) ∧
    (∃ s t : State, execute 0x00000003 s = .next t ∧ t.lasterr ≠ .none ∧ s.pending = some 0x00000003) :=
  ⟨⟨{ loaded with pending := some 0 }, State.cmdError .illegalOp { loaded with pending := some 0 }, rfl, by decide, rfl⟩,
    ⟨{ loaded with pending := some 3 }, State.cmdError .sequence { loaded with pending := some 3 }, rfl, by decide, rfl⟩⟩

theorem witness_VariantMismatchFails :
    (∃ s : State, sessionVariant .enc256 = some .v256 ∧ s.phase ≠ .idle ∧ Variant.v256 ≠ s.var) ∧
    (∃ s : State, sessionVariant .enc256 = some .v256 ∧ s.phase = .idle) ∧
    (∃ t, exec .enc256 session128L = .next t ∧ t.lasterr = .variant) :=
  ⟨⟨session128L, by decide⟩, ⟨State.reset, by decide⟩,
    ⟨session128L.cmdError .variant, exec_of_check_error (by decide), rfl⟩⟩

theorem witness_OutOfPhaseFails :
    (∃ s : State, ¬ LegalIn .abs128L s.phase ∧ s.phase = .idle) ∧
    (∃ s : State, ¬ LegalIn (.final256 .t16) s.phase ∧ ∀ v, sessionVariant (.final256 .t16) = some v → v = s.var) ∧
    (∃ t, LegalIn .aesrnd State.reset.phase ∧ exec .aesrnd State.reset = .next t) :=
  ⟨⟨State.reset, by simp [LegalIn, State.reset], rfl⟩,
    ⟨{ session256 with phase := .done }, by simp [LegalIn], by simp [sessionVariant, session256]⟩,
    ⟨_, trivial, rfl⟩⟩

/-- At the limit for `ADCNT` and for `MSGCNT`; the second clause's and the third's premises at one state. -/
theorem witness_LengthLimitFails :
    (∃ s : State, LegalIn (.absp128L 1) s.phase ∧ sessionVariant (.absp128L 1) = some s.var ∧
      0 < adAdded (.absp128L 1) ∧ s.adcnt.toNat + adAdded (.absp128L 1) ≥ 2 ^ 61) ∧
    (∃ s : State, LegalIn .enc256 s.phase ∧ sessionVariant .enc256 = some s.var ∧
      0 < msgAdded .enc256 ∧ s.msgcnt.toNat + msgAdded .enc256 ≥ 2 ^ 61) ∧
    (∃ s t : State, exec .abs128L s = .next t ∧ t.lasterr = .length ∧ Instr.abs128L.wellFormed = true ∧
      s.phase = .ad ∧ s.var = .v128L ∧ s.adcnt = 0x1FFFFFFFFFFFFFE0#64) := by
  refine ⟨⟨{ session128L with adcnt := 0x1FFFFFFFFFFFFFFF }, ?_⟩, ⟨{ session256 with msgcnt := 0x1FFFFFFFFFFFFFF0 }, ?_⟩,
    ⟨{ session128L with adcnt := 0x1FFFFFFFFFFFFFE0 },
      State.cmdError .length { session128L with adcnt := 0x1FFFFFFFFFFFFFE0 }, ?_⟩⟩
  · simp [LegalIn, session128L, sessionVariant, adAdded, State.reset]
  · simp [LegalIn, session256, sessionVariant, msgAdded, State.reset]
  · exact ⟨exec_of_check_error (by decide), rfl, rfl, rfl, rfl, rfl⟩

theorem witness_PhaseTable : ∃ t, exec .enc128L session128L = .next t ∧ t.lasterr = .none :=
  ⟨_, exec_of_check_none (by decide), rfl⟩

/-- No check fails; an error of decoding; one of a state check. -/
theorem witness_StatusFieldTable : stateCheck (.final256 .t32) session256 = .none ∧
    decode 0x00000012 = .error .badCount ∧ decode 0x00000003 = .ok .verify ∧ stateCheck .verify session256 = .sequence := by
  decide

theorem witness_CommandFrame : ∃ t, exec (.absp128L 1) session128L = .next t ∧ Instr.absp128L 1 ≠ .zeroize :=
  ⟨_, exec_of_check_none (by decide), by decide⟩

theorem witness_AesrndResult : (0x00000201#32).toNat % 256 = 0x01 ∧ (0x00000201#32).toNat / 256 ≠ 0 := by decide

theorem witness_ZeroizeResult : (∃ s : State, s.pending = some 0x00000002) ∧
    ((0x00000202#32).toNat % 256 = 0x02 ∧ (0x00000202#32).toNat / 256 ≠ 0) ∧
    ∃ s t : State, (0x00000003#32) ≠ 0x00000002 ∧ execute 0x00000003 s = .next t ∧ s.err = true :=
  ⟨⟨{ loaded with pending := some 2 }, rfl⟩, by decide,
    ⟨{ loaded with err := true }, State.cmdError .sequence { loaded with err := true }, by decide, rfl, rfl⟩⟩

/-- Equal first bytes with a tag of 16 bytes, and unequal ones. -/
theorem witness_VerifyResult :
    (∃ s : State, s.phase = .done ∧ s.tlen = .t16 ∧ ∀ i, i < tagBytes s.tlen → s.tagin.get i = s.tagout.get i) ∧
    (∃ s : State, s.phase = .done ∧ ¬ ∀ i, i < tagBytes s.tlen → s.tagin.get i = s.tagout.get i) :=
  ⟨⟨{ session128L with phase := .done, tlen := .t16 }, rfl, rfl, fun _ _ => rfl⟩,
    ⟨{ session128L with phase := .done, tlen := .t32, tagin := ⟨Block.zero, same 1⟩ }, rfl,
      fun h => absurd (h 31 (by decide)) (by decide)⟩⟩

theorem witness_Absorb128LResult :
    State.MayAbsorb { session128L with adcnt := 0x1FFFFFFFFFFFFFDF } .v128L 32 ∧
    State.MayAbsorb { session128L with adcnt := 0x1FFFFFFFFFFFFFE0 } .v128L (31 : BitVec 5).toNat := by
  unfold State.MayAbsorb; decide

theorem witness_Absorb256Result :
    State.MayAbsorb { session256 with adcnt := 0x1FFFFFFFFFFFFFEF } .v256 16 ∧
    State.MayAbsorb { session256 with adcnt := 0x1FFFFFFFFFFFFFF0 } .v256 (15 : BitVec 5).toNat := by
  unfold State.MayAbsorb; decide

theorem witness_Encrypt128LResult : session128L.MayProcess .v128L 32 ∧
    State.MayProcess { session128L with phase := .msg, msgcnt := 32 } .v128L (31 : BitVec 5).toNat := by
  unfold State.MayProcess; decide

theorem witness_Encrypt256Result : session256.MayProcess .v256 16 ∧ (15 : BitVec 5).toNat ≤ 15 ∧
    State.MayProcess { session256 with phase := .adPart, adcnt := 1 } .v256 (15 : BitVec 5).toNat := by
  unfold State.MayProcess; decide

theorem witness_Decrypt128LResult : session128L.MayProcess .v128L 32 ∧
    State.MayProcess { session128L with phase := .msg, msgcnt := 0x1FFFFFFFFFFFFFE0 } .v128L (31 : BitVec 5).toNat := by
  unfold State.MayProcess; decide

theorem witness_Decrypt256Result : session256.MayProcess .v256 16 ∧ (1 : BitVec 5).toNat ≤ 15 ∧
    State.MayProcess { session256 with phase := .msg, msgcnt := 0x1FFFFFFFFFFFFFF0 } .v256 (1 : BitVec 5).toNat := by
  unfold State.MayProcess; decide

theorem witness_Final128LResult : session128L.MayFinish .v128L ∧
    State.MayFinish { session128L with phase := .msgPart, msgcnt := 5 } .v128L := by unfold State.MayFinish; decide

theorem witness_Final256Result : session256.MayFinish .v256 ∧
    State.MayFinish { session256 with phase := .adPart, adcnt := 3 } .v256 := by unfold State.MayFinish; decide

theorem witness_CountersStayBounded : (State.CountersBounded { session128L with adcnt := 0x1FFFFFFFFFFFFFFF }) ∧
    ∃ t, step { session128L with adcnt := 0x1FFFFFFFFFFFFFFF } = .next t :=
  ⟨by unfold State.CountersBounded; decide, _, rfl⟩

theorem witness_UnusedHalvesStayClear : session256.UnusedHalvesClear ∧ session256.var = .v256 ∧
    ∃ t, step session256 = .next t := ⟨fun _ => ⟨rfl, rfl, rfl⟩, rfl, _, rfl⟩

theorem witness_ErrorFieldsStayAgreed :
    (State.ErrorFieldsAgree { session256 with err := true, errcode := .length }) ∧
    ∃ t, step { session256 with err := true, errcode := .length } = .next t :=
  ⟨by simp [State.ErrorFieldsAgree], _, rfl⟩

theorem witness_TagFieldsStayAgreed :
    (State.TagFieldsAgree { session256 with phase := .done, tlen := .t32, auth := true }) ∧
    ∃ t, step { session256 with phase := .done, tlen := .t32, auth := true } = .next t := by
  refine ⟨⟨fun _ => rfl, fun _ => rfl, fun i _ => ?_⟩, _, rfl⟩
  rcases Nat.lt_or_ge i 32 with h | h
  · interval_cases i <;> rfl
  · simp only [Data.get, session256, State.reset, Data.zero]
    split
    · omega
    · obtain ⟨k, rfl⟩ := Nat.exists_eq_add_of_le h
      have : 32 + k - 16 = k + 16 := by omega
      rw [this]
      rfl

theorem witness_BlocksStayAccounted :
    (State.BlocksAccounted { session128L with phase := .msg, msgcnt := 64 }) ∧
    (State.BlocksAccounted { session256 with phase := .adPart, adcnt := 17 }) ∧
    ∃ t, step { session128L with phase := .msg, msgcnt := 64 } = .next t := by
  refine ⟨?_, ?_, _, rfl⟩ <;> simp [State.BlocksAccounted, session128L, session256, rate, State.reset]

theorem witness_IdleStaysClear : loaded.IdleClear ∧ loaded.phase = .idle ∧ ∃ t, step loaded = .next t :=
  ⟨fun _ => ⟨rfl, rfl, rfl, rfl, rfl, rfl, rfl⟩, rfl, _, rfl⟩

/-- Each kind of refused access, and the last admitted offset. -/
theorem witness_RefusedAccessFaults :
    ¬ (2 = 4 ∧ 0x000 % 4 = 0 ∧ 0x000 < 0x200) ∧ ¬ (4 = 4 ∧ 0x1FE % 4 = 0 ∧ 0x1FE < 0x200) ∧
    ¬ (4 = 4 ∧ 0x200 % 4 = 0 ∧ 0x200 < 0x200) ∧ (4 = 4 ∧ 0x1FC % 4 = 0 ∧ 0x1FC < 0x200) ∧
    (∃ s : State, s.inputs = .read 0x1FC 4 :: []) ∧ ∃ s : State, s.inputs = .write 0x200 4 0 :: [] :=
  ⟨by decide, by decide, by decide, by decide, ⟨{ loaded with inputs := [.read 0x1FC 4] }, rfl⟩,
    ⟨{ loaded with inputs := [.write 0x200 4 0] }, rfl⟩⟩

/-- Not busy, and busy; the bounds of the word numbers and of the two reserved ranges. -/
theorem witness_HostReadValues :
    State.reset.pending = none ∧ (7 : Nat) < 8 ∧ (0x020 ≤ 0x0FC ∧ 0x0FC < 0x100) ∧ (0x1C0 ≤ 0x1FC ∧ 0x1FC < 0x200) ∧
    ∃ s : State, s.pending = some 0x00000010 ∧ (0x004 : Nat) ≠ 0x000 ∧ (0x004 : Nat) ≠ 0x008 :=
  ⟨rfl, by decide, by decide, by decide, { loaded with pending := some 0x10 }, rfl, by decide, by decide⟩

theorem witness_WordByteOrder : (7 : Nat) < 8 ∧ (3 : Nat) < 4 := by decide

theorem witness_HostWriteEffect :
    State.reset.pending = none ∧ (7 : Nat) < 8 ∧ (0x00C ≤ 0x0FC ∧ 0x0FC < 0x100) ∧ (0x1C0 ≤ 0x1FC ∧ 0x1FC < 0x200) ∧
    ∃ s : State, s.pending = some 0x00000010 :=
  ⟨rfl, by decide, by decide, by decide, { loaded with pending := some 0x10 }, rfl⟩

theorem witness_WrittenWordReadsBack : State.reset.pending = none ∧ (7 : Nat) < 8 := ⟨rfl, by decide⟩

/-- Two machines with different keys and state words, and a read and a write still to come. -/
theorem witness_SecretsHiddenFromHost :
    ∃ s t s' : State, s.SameButSecrets t ∧ s ≠ t ∧ (∀ e ∈ s.inputs, e ≠ .core ∧ e ≠ .reset) ∧ 2 ≤ s.inputs.length ∧
      runSteps 2 s = .next s' ∧ s'.draws = s.draws :=
  ⟨{ State.reset with inputs := [.write 0x104 4 7, .read 0x100 4] },
    { State.reset with inputs := [.write 0x104 4 7, .read 0x100 4], S := lanes128L, key := loaded.key }, _, rfl,
    by decide +kernel, by decide, by decide, rfl, rfl⟩

theorem witness_ResetValues : (0x008 : Nat) ≠ 0x000 := by decide

theorem witness_ResetAnyTime : ∃ s : State, s.pending = some 0x00000010 ∧ s.inputs = .reset :: [] :=
  ⟨{ loaded with pending := some 0x10, inputs := [.reset] }, rfl, rfl⟩

theorem witness_RoundClosedForm : (3 : Nat) < 4 := by decide

theorem witness_RoundLinearInKey : (15 : Nat) < 16 := by decide

/-- The zero byte, and a byte with its inverse (R142: `0x53 · 0xCA = 1`). -/
theorem witness_SboxIsAffineOfInverse : ((0 : Byte) = 0 ∧ (0 : Byte) = 0) ∧ gfMul 0x53 0xCA = 1 ∧ (0x53 : Byte) ≠ 0 := by
  decide

theorem witness_KeystreamBytes : (15 : Nat) < 16 := by decide

theorem witness_DecryptMirrorsEncrypt :
    (∃ (t : State) (c : Data), exec .enc128L session128L = .next t ∧ t.lasterr = .none ∧
      ∀ j, j < 32 → c.get j = t.dout.get j) ∧
    (∃ (t : State) (c : Data), exec (.encp256 15) session256 = .next t ∧ t.lasterr = .none ∧ (15 : BitVec 5).toNat ≤ 15 ∧
      ∀ j, j < (15 : BitVec 5).toNat → c.get j = t.dout.get j) :=
  ⟨⟨_, _, exec_of_check_none (by decide), rfl, fun _ _ => rfl⟩,
    ⟨_, _, exec_of_check_none (by decide), rfl, by decide, fun _ _ => rfl⟩⟩

theorem witness_DinBeyondBlockIgnored :
    ∃ s t s' : State, State.SameButDinFrom 16 s t ∧ s.din ≠ t.din ∧ exec .enc256 s = .next s' :=
  ⟨session256, { session256 with din := ⟨Block.zero, same 0xff⟩ }, _,
    ⟨rfl, fun i h => by interval_cases i <;> rfl⟩, by decide, exec_of_check_none (by decide)⟩

theorem witness_PollWaitsForCompletion : State.reset.pending = none ∧
    ∃ s t : State, s.pending = some 0x00000011 ∧ execute 0x00000011 s = .next t :=
  ⟨rfl, { State.reset with pending := some 0x00000011 },
    State.cmdError .sequence { State.reset with pending := some 0x00000011 }, rfl, rfl⟩

theorem witness_HostEncryptComputesAead : loaded.pending = none ∧ loaded.err = false ∧
    (List.replicate 32 (0 : Byte)).length = keySize .v256 ∧ (List.replicate 32 (0 : Byte)).length = nonceSize .v256 ∧
    ([] : List Byte).length < 2 ^ 61 ∧ (List.replicate 33 (0 : Byte)).length < 2 ^ 61 := by decide

theorem witness_HostTryDecryptComputesAead : loaded.pending = none ∧ loaded.err = false ∧
    (List.replicate 16 (0 : Byte)).length = keySize .v128L ∧ (List.replicate 16 (0 : Byte)).length = nonceSize .v128L ∧
    ([] : List Byte).length < 2 ^ 61 ∧ tagBytes .t16 ≤ (List.replicate 16 (0 : Byte)).length ∧
    (List.replicate 16 (0 : Byte)).length - tagBytes .t16 < 2 ^ 61 := by decide

theorem witness_EveryRunCompletes : AllAdmitted [.write 0x004 4 0x10, .core, .read 0x1FC 4, .reset] := by
  simp [AllAdmitted, admitted, Config.windowSize]

end Sys2Proof.Tests
end

section
/-! The register window with no command pending, and the state after reset (spec/10_state.md R58). -/

namespace Sys2Proof

@[simp] theorem Data.word_zero (k : Nat) : Data.zero.word k = 0 := by
  simp [Data.word]

end Sys2Proof

namespace Sys2Proof.Machine

/-! ### Reads with no command pending -/

theorem State.isDraw_of_idle {s : State} (h : s.pending = none) (off : Nat) : s.isDraw off = false := by
  simp [State.isDraw, State.busy, h]

/-- R76: with no command pending a read takes no draw and returns the register. -/
theorem State.hostRead_of_idle {s : State} (h : s.pending = none) (off : Nat) :
    s.hostRead off = s.readReg (regAt off) := by
  simp [State.hostRead, State.isDraw_of_idle h]

/-- R71: the offset 0x000 is the only one of `ID`. -/
theorem regAt_eq_id_iff {off : Nat} : regAt off = .id ↔ off = 0x000 := by
  fun_cases regAt off with
  | case1 h => exact iff_of_true rfl h
  | _ => exact iff_of_false nofun ‹¬ off = 0x000›

/-! ### The state after reset -/

theorem statusWord_reset : statusWord State.reset = 0x00000000 := by decide

/-- R58, R76: after reset every register but `ID` reads 0. -/
theorem readReg_reset_of_ne_id {r : Reg} (h : r ≠ .id) : State.reset.readReg r = 0 := by
  cases r with
  | id => exact absurd rfl h
  | status => exact statusWord_reset
  | nonce k => exact Data.word_zero k
  | din k => exact Data.word_zero k
  | dout k => exact Data.word_zero k
  | tagin k => exact Data.word_zero k
  | tagout k => exact Data.word_zero k
  | adcntLo => decide
  | adcntHi => decide
  | msgcntLo => decide
  | msgcntHi => decide
  | cmd => rfl
  | key k => rfl
  | reserved => rfl

theorem hostRead_reset_id : State.reset.hostRead 0x000 = 0xAE610701 := by
  rw [State.hostRead_of_idle rfl, regAt_eq_id_iff.2 rfl]
  rfl

theorem hostRead_reset_of_ne_id {off : Nat} (h : off ≠ 0x000) : State.reset.hostRead off = 0 := by
  rw [State.hostRead_of_idle rfl]
  exact readReg_reset_of_ne_id (mt regAt_eq_id_iff.1 h)

/-- Settles O45: the fields are `State.reset`'s own, and with nothing pending a read returns the register, which is 0 for every
offset but `ID`'s. -/
theorem resetValues : Obligations.ResetValues := by
  unfold Obligations.ResetValues
  exact ⟨rfl, rfl, rfl, rfl, rfl, rfl, rfl, rfl, rfl, rfl, rfl, rfl, rfl, rfl, rfl, rfl, rfl, rfl,
    statusWord_reset, hostRead_reset_id, fun _ => hostRead_reset_of_ne_id⟩

end Sys2Proof.Machine
end

section
/-! The byte order of register words (spec/20_memory.md R72) and the effect of a host write (R77). -/

namespace Sys2Proof

/-! ### Register words as numbers -/

/-- R72: byte `i` of a register word as a digit of its value to the base 256. -/
theorem wordByte_eq_ofNat (v : Word32) (i : Nat) : wordByte v i = BitVec.ofNat 8 (v.toNat / 256 ^ i) := by
  rw [wordByte, BitVec.extractLsb', Nat.shiftRight_eq_div_pow, Nat.pow_mul]

theorem toNat_append_byte {w : Nat} (x : BitVec w) (b : Byte) : (x ++ b).toNat = 256 * x.toNat + b.toNat := by
  rw [BitVec.toNat_append, ← Nat.shiftLeft_add_eq_or_of_lt b.isLt, Nat.shiftLeft_eq, Nat.mul_comm]

/-- R72: a word's value, the byte of the lowest offset as its least significant digit. -/
theorem Data.toNat_word (d : Data) (k : Nat) :
    (d.word k).toNat = (d.get (4 * k)).toNat + 256 * (d.get (4 * k + 1)).toNat + 256 ^ 2 * (d.get (4 * k + 2)).toNat +
      256 ^ 3 * (d.get (4 * k + 3)).toNat := by
  simp only [Data.word, toNat_append_byte]
  omega

/-- R77: the written register byte by byte, the new bytes as digits of the value. -/
theorem Data.get_setWord_eq_ofNat (d : Data) (k : Nat) (v : Word32) {j : Nat} (h : j < 32) :
    (d.setWord k v).get j = if j / 4 = k then BitVec.ofNat 8 (v.toNat / 256 ^ (j % 4)) else d.get j := by
  rw [Data.get_setWord d k v h, wordByte_eq_ofNat]

/-- Settles O40: the word is the number with the four bytes as its digits to the base 256, the least significant first. -/
theorem wordByteOrder : Obligations.WordByteOrder := by
  unfold Obligations.WordByteOrder
  intro d k i _ hi
  have h0 := (d.get (4 * k)).isLt
  have h1 := (d.get (4 * k + 1)).isLt
  have h2 := (d.get (4 * k + 2)).isLt
  have h3 := (d.get (4 * k + 3)).isLt
  rw [Data.toNat_word]
  interval_cases i
  · rw [Nat.pow_zero, Nat.div_one, Nat.add_zero (4 * k)]
    omega
  all_goals omega

end Sys2Proof

namespace Sys2Proof.Machine

/-! ### The registers at the window's offsets -/

section
variable {k : Nat} (h : k < 8)
include h

theorem regAt_key : regAt (0x100 + 4 * k) = .key k := by interval_cases k <;> rfl
theorem regAt_nonce : regAt (0x120 + 4 * k) = .nonce k := by interval_cases k <;> rfl
theorem regAt_din : regAt (0x140 + 4 * k) = .din k := by interval_cases k <;> rfl
theorem regAt_dout : regAt (0x160 + 4 * k) = .dout k := by interval_cases k <;> rfl
theorem regAt_tagin : regAt (0x180 + 4 * k) = .tagin k := by interval_cases k <;> rfl
theorem regAt_tagout : regAt (0x1A0 + 4 * k) = .tagout k := by interval_cases k <;> rfl

end

/-- R71: the registers a host write can change. -/
def Reg.writable : Reg → Bool
  | .cmd | .status | .key _ | .nonce _ | .din _ | .tagin _ => true
  | .id | .adcntLo | .adcntHi | .msgcntLo | .msgcntHi | .dout _ | .tagout _ | .reserved => false

/-- R71: `ID`, and the window around the data registers but for `CMD` and `STATUS`. -/
theorem regAt_not_writable {off : Nat} (h : off = 0x000 ∨ 0x00C ≤ off ∧ off < 0x100 ∨ 0x1C0 ≤ off) :
    (regAt off).writable = false := by
  fun_cases regAt off with
  | case2 | case3 | case8 | case9 | case10 | case12 => omega
  | _ => rfl

/-! ### The effect of a write -/

/-- R368: a write while a command is pending. -/
theorem State.hostWrite_of_pending {s : State} {w : Word32} (h : s.pending = some w) (off : Nat) (v : Word32) :
    s.hostWrite off v = { s with bwe := true } := by
  simp [State.hostWrite, State.busy, h]

theorem State.hostWrite_of_idle {s : State} (h : s.pending = none) (off : Nat) (v : Word32) :
    s.hostWrite off v = s.writeReg v (regAt off) := by
  simp [State.hostWrite, State.busy, h]

/-- R77: a write to a read-only register or to a reserved offset is ignored. -/
theorem State.writeReg_of_not_writable {r : Reg} (h : r.writable = false) (s : State) (v : Word32) : s.writeReg v r = s := by
  cases r with
  | cmd | status | key | nonce | din | tagin => cases h
  | _ => rfl

theorem State.writeStatus_eq (s : State) (v : Word32) :
    s.writeStatus v = { s with
      err := s.err && !v.getLsbD 2
      errcode := if v.getLsbD 2 then .none else s.errcode
      bwe := s.bwe && !v.getLsbD 3 } := by
  unfold State.writeStatus
  cases v.getLsbD 2 <;> cases v.getLsbD 3 <;> simp

/-- Settles O41: with a command pending a write sets `BWE`; else it has the effect of its register, which is read off the offset. -/
theorem hostWriteEffect : Obligations.HostWriteEffect := by
  unfold Obligations.HostWriteEffect
  intro s v
  refine ⟨fun w off hp => State.hostWrite_of_pending hp off v, fun hp => ?_⟩
  have ignored {off : Nat} (h : (regAt off).writable = false) : s.hostWrite off v = s := by
    rw [State.hostWrite_of_idle hp, State.writeReg_of_not_writable h]
  refine ⟨State.hostWrite_of_idle hp _ v, ?_, fun k hk => ⟨?_, ?_, ?_, ?_, ?_, ?_⟩, fun off _ hoff => ?_⟩
  · rw [State.hostWrite_of_idle hp, ← State.writeStatus_eq]
    rfl
  · exact ⟨_, fun _ => s.key.get_setWord_eq_ofNat k v, by rw [State.hostWrite_of_idle hp, regAt_key hk]; rfl⟩
  · exact ⟨_, fun _ => s.nonce.get_setWord_eq_ofNat k v, by rw [State.hostWrite_of_idle hp, regAt_nonce hk]; rfl⟩
  · exact ⟨_, fun _ => s.din.get_setWord_eq_ofNat k v, by rw [State.hostWrite_of_idle hp, regAt_din hk]; rfl⟩
  · exact ignored (by rw [regAt_dout hk]; rfl)
  · exact ⟨_, fun _ => s.tagin.get_setWord_eq_ofNat k v, by rw [State.hostWrite_of_idle hp, regAt_tagin hk]; rfl⟩
  · exact ignored (by rw [regAt_tagout hk]; rfl)
  · exact ignored (regAt_not_writable (by omega))

end Sys2Proof.Machine
end

section
/-! The command word as its fields, the round trip of decoder and encoder, and the rows of the opcode map
(spec/30_encoding.md). -/

namespace Sys2Proof

/-! ### A word and its fields -/

/-- R100: the word with the given fields and reserved bits `hi` (31:21) and `mid` (15:11). -/
def wordOfFields (hi : BitVec 11) (cnt mid : BitVec 5) (tsz : BitVec 2) (var : BitVec 1) (op : BitVec 8) : Word32 :=
  hi ++ cnt ++ mid ++ tsz ++ var ++ op

theorem commandWord_eq_wordOfFields (op : Op) (v : Variant) (tsz : BitVec 2) (cnt : BitVec 5) :
    commandWord op v tsz cnt = wordOfFields 0 cnt 0 tsz v.code op.code := rfl

theorem append_eq_append_iff {n m : Nat} {x x' : BitVec n} {y y' : BitVec m} :
    x ++ y = x' ++ y' ↔ x = x' ∧ y = y' := by
  refine ⟨fun h => ⟨?_, ?_⟩, fun ⟨hx, hy⟩ => by rw [hx, hy]⟩
  · simpa [BitVec.extractLsb'_append_eq_left] using congrArg (BitVec.extractLsb' m n) h
  · simpa [BitVec.extractLsb'_append_eq_right] using congrArg (BitVec.extractLsb' 0 m) h

theorem wordOfFields_inj {hi hi' : BitVec 11} {cnt cnt' mid mid' : BitVec 5} {tsz tsz' : BitVec 2} {var var' : BitVec 1}
    {op op' : BitVec 8} : wordOfFields hi cnt mid tsz var op = wordOfFields hi' cnt' mid' tsz' var' op' ↔
      hi = hi' ∧ cnt = cnt' ∧ mid = mid' ∧ tsz = tsz' ∧ var = var' ∧ op = op' :=
  append_eq_append_iff.trans (by simp only [append_eq_append_iff, and_assoc])

theorem code_fieldVar (w : Word32) : (fieldVar w).code = w.extractLsb' 8 1 := by
  have bit : w.extractLsb' 8 1 = BitVec.ofBool (w.getLsbD 8) := by
    ext k hk
    obtain rfl : k = 0 := by omega
    simp
  rw [bit, fieldVar]
  cases w.getLsbD 8 <;> rfl

/-- R100, R105: the fields and the reserved bits are the whole word. -/
theorem wordOfFields_fields (w : Word32) : wordOfFields (w.extractLsb' 21 11) (fieldCnt w) (w.extractLsb' 11 5)
    (fieldTsz w) (fieldVar w).code (fieldOp w) = w := by
  have join (a b c : Nat) : w.extractLsb' (a + b) c ++ w.extractLsb' a b = w.extractLsb' a (c + b) :=
    BitVec.extractLsb'_append_extractLsb'_eq_extractLsb' rfl
  rw [code_fieldVar, wordOfFields, fieldCnt, fieldTsz, fieldOp,
    join 16 5 11, join 11 5 16, join 9 2 21, join 8 1 23, join 0 8 24]
  exact BitVec.extractLsb'_eq_self

theorem Variant.code_inj {v v' : Variant} : v.code = v'.code ↔ v = v' := by
  cases v <;> cases v' <;> decide

/-- A word is a command's exactly when its reserved bits are 0 and its fields the command's. -/
theorem eq_commandWord_iff {w : Word32} {op : Op} {v : Variant} {tsz : BitVec 2} {cnt : BitVec 5} :
    w = commandWord op v tsz cnt ↔ w.extractLsb' 21 11 = 0 ∧ fieldCnt w = cnt ∧ w.extractLsb' 11 5 = 0 ∧ fieldTsz w = tsz ∧
      fieldVar w = v ∧ fieldOp w = op.code := by
  conv_lhs => rw [← wordOfFields_fields w, commandWord_eq_wordOfFields, wordOfFields_inj, Variant.code_inj]

section
variable (op : Op) (v : Variant) (tsz : BitVec 2) (cnt : BitVec 5)

@[simp] theorem fieldCnt_commandWord : fieldCnt (commandWord op v tsz cnt) = cnt := by
  obtain ⟨-, h, -⟩ := eq_commandWord_iff.1 (rfl : commandWord op v tsz cnt = _)
  exact h

@[simp] theorem fieldTsz_commandWord : fieldTsz (commandWord op v tsz cnt) = tsz := by
  obtain ⟨-, -, -, h, -⟩ := eq_commandWord_iff.1 (rfl : commandWord op v tsz cnt = _)
  exact h

@[simp] theorem fieldVar_commandWord : fieldVar (commandWord op v tsz cnt) = v := by
  obtain ⟨-, -, -, -, h, -⟩ := eq_commandWord_iff.1 (rfl : commandWord op v tsz cnt = _)
  exact h

@[simp] theorem fieldOp_commandWord : fieldOp (commandWord op v tsz cnt) = op.code := by
  obtain ⟨-, -, -, -, -, h⟩ := eq_commandWord_iff.1 (rfl : commandWord op v tsz cnt = _)
  exact h

end

/-! ### Masked words -/

theorem and_wordOfFields (w : Word32) (hi : BitVec 11) (cnt mid : BitVec 5) (tsz : BitVec 2) (var : BitVec 1)
    (op : BitVec 8) : w &&& wordOfFields hi cnt mid tsz var op = wordOfFields (w.extractLsb' 21 11 &&& hi)
      (fieldCnt w &&& cnt) (w.extractLsb' 11 5 &&& mid) (fieldTsz w &&& tsz) ((fieldVar w).code &&& var)
      (fieldOp w &&& op) := by
  conv_lhs => rw [← wordOfFields_fields w]
  exact BitVec.and_append.trans (by simp only [BitVec.and_append]; rfl)

/-- R105: the mask of the reserved bits. -/
theorem and_reservedMask_eq_zero_iff (w : Word32) :
    w &&& reservedMask = 0 ↔ w.extractLsb' 21 11 = 0 ∧ w.extractLsb' 11 5 = 0 := by
  have hm : reservedMask = wordOfFields (.allOnes 11) 0 (.allOnes 5) 0 0 0 := rfl
  have h0 : (0 : Word32) = wordOfFields 0 0 0 0 0 0 := rfl
  rw [hm, and_wordOfFields, h0, wordOfFields_inj]
  simp only [BitVec.and_allOnes, BitVec.ofNat_eq_ofNat, BitVec.and_zero, true_and, and_true]

/-- R107: the mask of the rows with a count. -/
theorem and_countMask_eq_iff (op : Op) (v : Variant) (w : Word32) :
    w &&& 0xFFE0FFFF = commandWord op v 0 0 ↔ w = commandWord op v 0 (fieldCnt w) := by
  have hm : (0xFFE0FFFF : Word32) = wordOfFields (.allOnes 11) 0 (.allOnes 5) (.allOnes 2) (.allOnes 1) (.allOnes 8) := rfl
  rw [hm, and_wordOfFields, commandWord_eq_wordOfFields, wordOfFields_inj, eq_commandWord_iff]
  simp only [Variant.code_inj, BitVec.and_allOnes, BitVec.ofNat_eq_ofNat, BitVec.and_zero, true_and]

/-- R107: the mask of the rows with a tag size. -/
theorem and_tagMask_eq_iff (op : Op) (v : Variant) (w : Word32) :
    w &&& 0xFFFFF9FF = commandWord op v 0 0 ↔ w = commandWord op v (fieldTsz w) 0 := by
  have hm : (0xFFFFF9FF : Word32) = wordOfFields (.allOnes 11) (.allOnes 5) (.allOnes 5) 0 (.allOnes 1) (.allOnes 8) := rfl
  rw [hm, and_wordOfFields, commandWord_eq_wordOfFields, wordOfFields_inj, eq_commandWord_iff]
  simp only [Variant.code_inj, BitVec.and_allOnes, BitVec.ofNat_eq_ofNat, BitVec.and_zero, true_and]

@[simp] theorem commandWord_and_reservedMask (op : Op) (v : Variant) (tsz : BitVec 2) (cnt : BitVec 5) :
    commandWord op v tsz cnt &&& reservedMask = 0 := by
  obtain ⟨hhi, -, hmid, -⟩ := eq_commandWord_iff.1 (rfl : commandWord op v tsz cnt = _)
  exact (and_reservedMask_eq_zero_iff _).2 ⟨hhi, hmid⟩

/-! ### The codes of operations and tag sizes -/

@[simp] theorem opOfCode_code (op : Op) : opOfCode op.code = some op := by cases op <;> rfl

theorem opOfCode_eq_some_iff {c : BitVec 8} {op : Op} : opOfCode c = some op ↔ op.code = c := by
  refine ⟨?_, fun h => h ▸ opOfCode_code op⟩
  fun_cases opOfCode c with
  | case12 => exact nofun
  | _ =>
    rintro ⟨⟩
    exact Eq.symm ‹c = _›

theorem tagSizeOfCode_eq_some_iff {c : BitVec 2} {t : TagSize} : tagSizeOfCode c = some t ↔ t.code = c := by
  constructor
  · fun_cases tagSizeOfCode c with
    | case4 => exact nofun
    | _ =>
      rintro ⟨⟩
      exact Eq.symm ‹c = _›
  · rintro rfl
    cases t <;> rfl

@[simp] theorem TagSize.code_inj {t t' : TagSize} : t.code = t'.code ↔ t = t' := by
  rw [← tagSizeOfCode_eq_some_iff, tagSizeOfCode_eq_some_iff.2 rfl, Option.some.injEq, eq_comm]

/-- R103: code 3 is the only one without a tag size. -/
theorem exists_tagSize_code_iff {c : BitVec 2} : (∃ t : TagSize, t.code = c) ↔ c ≠ 3 := by
  constructor
  · rintro ⟨t, rfl⟩
    cases t <;> decide
  · intro h3
    fun_cases tagSizeOfCode c with
    | case1 h => exact ⟨.t0, h.symm⟩
    | case2 _ h => exact ⟨.t16, h.symm⟩
    | case3 _ _ h => exact ⟨.t32, h.symm⟩
    | case4 => bv_omega

/-! ### What each shape of command decodes to (R106) -/

section
variable {w : Word32} {i i' j : Instr} {c c' : BitVec 5 → Instr}

theorem decodePlain_eq_ok_iff :
    decodePlain w i = .ok j ↔ fieldVar w = .v128L ∧ fieldTsz w = 0 ∧ fieldCnt w = 0 ∧ i = j := by
  unfold decodePlain
  split
  · exact iff_of_false nofun (by tauto)
  · rw [Except.ok.injEq]
    tauto

theorem decodeFull_eq_ok_iff : decodeFull w i i' = .ok j ↔ fieldTsz w = 0 ∧ fieldCnt w = 0 ∧
    (fieldVar w = .v128L ∧ i = j ∨ fieldVar w = .v256 ∧ i' = j) := by
  unfold decodeFull
  split_ifs <;> cases fieldVar w <;> simp_all

theorem decodePartial_eq_ok_iff : decodePartial w c c' = .ok j ↔ fieldTsz w = 0 ∧
    (fieldVar w = .v128L ∧ countOk128L (fieldCnt w) = true ∧ c (fieldCnt w) = j ∨
      fieldVar w = .v256 ∧ countOk256 (fieldCnt w) = true ∧ c' (fieldCnt w) = j) := by
  unfold decodePartial
  cases fieldVar w <;> split_ifs <;> simp_all

theorem decodeFinal_eq_ok_iff : decodeFinal w = .ok j ↔ fieldCnt w = 0 ∧ ∃ t : TagSize, t.code = fieldTsz w ∧
    (fieldVar w = .v128L ∧ .final128L t = j ∨ fieldVar w = .v256 ∧ .final256 t = j) := by
  unfold decodeFinal
  simp only [← tagSizeOfCode_eq_some_iff]
  cases tagSizeOfCode (fieldTsz w) <;> cases fieldVar w <;> split_ifs <;> simp_all

end

/-! ### The round trip -/

/-- R106: the decoder recovers every well-formed command from its word, since it reads the fields the encoder wrote. -/
theorem decode_encode {i : Instr} (h : i.wellFormed = true) : decode (encode i) = .ok i := by
  cases i <;> simp_all [encode, decode, decodePlain_eq_ok_iff, decodeFull_eq_ok_iff, decodePartial_eq_ok_iff,
    decodeFinal_eq_ok_iff, Instr.wellFormed]

/-- R106: a word that passes the checks on its opcode and its reserved bits is made of its fields. -/
theorem eq_commandWord_of_checks {w : Word32} {op : Op} (hop : opOfCode (fieldOp w) = some op)
    (hres : w &&& reservedMask = 0) : w = commandWord op (fieldVar w) (fieldTsz w) (fieldCnt w) := by
  obtain ⟨hhi, hmid⟩ := (and_reservedMask_eq_zero_iff w).1 hres
  exact eq_commandWord_iff.2 ⟨hhi, rfl, hmid, rfl, rfl, (opOfCode_eq_some_iff.1 hop).symm⟩

theorem encode_of_decode {w : Word32} {i : Instr} (h : decode w = .ok i) : encode i = w ∧ i.wellFormed = true := by
  obtain ⟨op, v, tsz, cnt, rfl⟩ : ∃ op v tsz cnt, w = commandWord op v tsz cnt := by
    unfold decode at h
    split at h
    · cases h
    · next op hop =>
      split at h
      · cases h
      · next hres => exact ⟨op, _, _, _, eq_commandWord_of_checks hop (not_not.1 hres)⟩
  cases op <;> simp only [decode, opOfCode_code, fieldOp_commandWord, commandWord_and_reservedMask, ne_eq, not_true_eq_false,
    if_false, decodePlain_eq_ok_iff, decodeFull_eq_ok_iff, decodePartial_eq_ok_iff, decodeFinal_eq_ok_iff,
    fieldVar_commandWord, fieldTsz_commandWord, fieldCnt_commandWord] at h
  case aesrnd | zeroize | verify =>
    obtain ⟨rfl, rfl, rfl, rfl⟩ := h
    exact ⟨rfl, rfl⟩
  case init | abs | enc | dec =>
    obtain ⟨rfl, rfl, ⟨rfl, rfl⟩ | ⟨rfl, rfl⟩⟩ := h <;> exact ⟨rfl, rfl⟩
  case absp | encp | decp =>
    obtain ⟨rfl, ⟨rfl, hcnt, rfl⟩ | ⟨rfl, hcnt, rfl⟩⟩ := h <;> exact ⟨rfl, hcnt⟩
  case final =>
    obtain ⟨rfl, t, rfl, ⟨rfl, rfl⟩ | ⟨rfl, rfl⟩⟩ := h <;> exact ⟨rfl, rfl⟩

/-! ### The rows of the opcode map (R107) -/

/-- The row of a command without a free field: one word. -/
def fixedRow (i : Instr) : OpcodeRow := ⟨i.mnemonic, encode i, 0xFFFFFFFF, .unconstrained⟩

/-- The row of the partial-block commands `c n`: the bits of `CNT` are free, from 1 to `hi`. -/
def countRow (c : BitVec 5 → Instr) (hi : Nat) : OpcodeRow := ⟨(c 0).mnemonic, encode (c 0), 0xFFE0FFFF, .cntRange 1 hi⟩

/-- The row of the `FINAL` commands `c t`: the bits of `TSZ` are free but for code 3. -/
def tagRow (c : TagSize → Instr) : OpcodeRow := ⟨(c .t0).mnemonic, encode (c .t0), 0xFFFFF9FF, .tszNot3⟩

/-- The row of a command. -/
def Instr.row : Instr → OpcodeRow
  | .absp128L _ => countRow .absp128L 31
  | .encp128L _ => countRow .encp128L 31
  | .decp128L _ => countRow .decp128L 31
  | .absp256 _ => countRow .absp256 15
  | .encp256 _ => countRow .encp256 15
  | .decp256 _ => countRow .decp256 15
  | .final128L _ => tagRow .final128L
  | .final256 _ => tagRow .final256
  | i => fixedRow i

/-- A command for each row of the opcode map, in the order of its rows. -/
def rowCommands : List Instr :=
  [.aesrnd, .zeroize, .verify, .init128L, .abs128L, .absp128L 0, .enc128L, .encp128L 0, .dec128L, .decp128L 0,
    .final128L .t0, .init256, .abs256, .absp256 0, .enc256, .encp256 0, .dec256, .decp256 0, .final256 .t0]

theorem opcodeMap_eq_map_row : opcodeMap = rowCommands.map Instr.row := by decide

theorem Instr.row_mem_opcodeMap (i : Instr) : i.row ∈ opcodeMap := by
  rw [opcodeMap_eq_map_row]
  cases i <;> simp [rowCommands, Instr.row]

theorem exists_row_eq {r : OpcodeRow} (h : r ∈ opcodeMap) : ∃ i : Instr, i.row = r := by
  rw [opcodeMap_eq_map_row] at h
  obtain ⟨i, -, hi⟩ := List.mem_map.1 h
  exact ⟨i, hi⟩

theorem Instr.mnemonic_row (i : Instr) : i.row.mnemonic = i.mnemonic := by cases i <;> rfl

/-- No two rows have the same mnemonic. -/
theorem eq_of_mnemonic_eq {r r' : OpcodeRow} (hr : r ∈ opcodeMap) (hr' : r' ∈ opcodeMap) (h : r.mnemonic = r'.mnemonic) :
    r = r' :=
  List.inj_on_of_nodup_map (by decide : (opcodeMap.map OpcodeRow.mnemonic).Nodup) hr hr' h

theorem fixedRow_accepts_iff {i : Instr} {w : Word32} : (fixedRow i).accepts w = true ↔ w = encode i := by
  have hmask : (0xFFFFFFFF : Word32) = .allOnes 32 := rfl
  simp only [OpcodeRow.accepts, fixedRow, RowConstraint.holds, hmask, BitVec.and_allOnes, Bool.and_true, beq_iff_eq]

theorem countRow_accepts_iff {c : BitVec 5 → Instr} {op : Op} {v : Variant} (hc : ∀ n, encode (c n) = commandWord op v 0 n)
    {hi : Nat} {w : Word32} :
    (countRow c hi).accepts w = true ↔ ∃ n : BitVec 5, (1 ≤ n.toNat ∧ n.toNat ≤ hi) ∧ w = encode (c n) := by
  simp only [OpcodeRow.accepts, countRow, RowConstraint.holds, Bool.and_eq_true, beq_iff_eq, decide_eq_true_eq, hc,
    and_countMask_eq_iff]
  constructor
  · exact fun ⟨hw, hn⟩ => ⟨_, hn, hw⟩
  · rintro ⟨n, hn, rfl⟩
    rw [fieldCnt_commandWord]
    exact ⟨rfl, hn⟩

theorem tagRow_accepts_iff {c : TagSize → Instr} {op : Op} {v : Variant} (hc : ∀ t, encode (c t) = commandWord op v t.code 0)
    {w : Word32} : (tagRow c).accepts w = true ↔ ∃ t : TagSize, w = encode (c t) := by
  simp only [OpcodeRow.accepts, tagRow, RowConstraint.holds, Bool.and_eq_true, beq_iff_eq, bne_iff_ne, hc,
    ← exists_tagSize_code_iff]
  rw [show TagSize.t0.code = 0 from rfl, and_tagMask_eq_iff]
  constructor
  · rintro ⟨hw, t, ht⟩
    exact ⟨t, ht ▸ hw⟩
  · rintro ⟨t, rfl⟩
    rw [fieldTsz_commandWord]
    exact ⟨rfl, t, rfl⟩

/-- R107: a command's word is its row's, the count being in the range of its variant. -/
theorem Instr.row_accepts_encode {i : Instr} (h : i.wellFormed = true) : i.row.accepts (encode i) = true := by
  cases i with
  | absp128L n | encp128L n | decp128L n | absp256 n | encp256 n | decp256 n =>
    exact (countRow_accepts_iff fun _ => rfl).2 ⟨n, of_decide_eq_true h, rfl⟩
  | final128L t | final256 t => exact (tagRow_accepts_iff fun _ => rfl).2 ⟨t, rfl⟩
  | _ => exact fixedRow_accepts_iff.2 rfl

/-- R107: a row's word is the word of a command with the row's mnemonic. -/
theorem Instr.exists_encode_eq_of_row_accepts {i : Instr} {w : Word32} (h : i.row.accepts w = true) :
    ∃ j : Instr, j.wellFormed = true ∧ encode j = w ∧ j.mnemonic = i.mnemonic := by
  cases i with
  | absp128L | encp128L | decp128L | absp256 | encp256 | decp256 =>
    obtain ⟨n, hn, rfl⟩ := (countRow_accepts_iff fun _ => rfl).1 h
    refine ⟨_, ?_, rfl, rfl⟩
    exact decide_eq_true hn
  | final128L | final256 =>
    obtain ⟨t, rfl⟩ := (tagRow_accepts_iff fun _ => rfl).1 h
    exact ⟨_, rfl, rfl, rfl⟩
  | _ => exact ⟨_, rfl, (fixedRow_accepts_iff.1 h).symm, rfl⟩

/-- R107: a word decodes to the row's command exactly when it is the row's. -/
theorem exists_decode_iff_accepts {r : OpcodeRow} (hr : r ∈ opcodeMap) (w : Word32) :
    (∃ i, decode w = .ok i ∧ i.mnemonic = r.mnemonic) ↔ r.accepts w = true := by
  constructor
  · rintro ⟨i, hdec, hm⟩
    obtain ⟨rfl, wf⟩ := encode_of_decode hdec
    obtain rfl : i.row = r := eq_of_mnemonic_eq i.row_mem_opcodeMap hr (i.mnemonic_row.trans hm)
    exact i.row_accepts_encode wf
  · intro h
    obtain ⟨i, rfl⟩ := exists_row_eq hr
    obtain ⟨j, wf, rfl, hm⟩ := i.exists_encode_eq_of_row_accepts h
    exact ⟨j, decode_encode wf, hm.trans i.mnemonic_row.symm⟩

/-! ### The fields as numbers -/

theorem toNat_fieldCnt (w : Word32) : (fieldCnt w).toNat = w.toNat / 65536 % 32 := by
  rw [fieldCnt, BitVec.extractLsb'_toNat, Nat.shiftRight_eq_div_pow]

theorem toNat_fieldTsz (w : Word32) : (fieldTsz w).toNat = w.toNat / 512 % 4 := by
  rw [fieldTsz, BitVec.extractLsb'_toNat, Nat.shiftRight_eq_div_pow]

/-- Settles O3: the words of a row are those `OpcodeRow.accepts`, and its constraint speaks of the fields as numbers. -/
theorem opcodeMapDecides : Obligations.OpcodeMapDecides := by
  unfold Obligations.OpcodeMapDecides
  refine ⟨fun w r hr => ?_, fun w i hdec => ⟨i.row, i.row_mem_opcodeMap, i.mnemonic_row⟩, rfl⟩
  rw [exists_decode_iff_accepts hr, OpcodeRow.accepts, Bool.and_eq_true, beq_iff_eq]
  refine and_congr_right fun _ => ?_
  cases r.constraint with
  | unconstrained => exact iff_of_true rfl trivial
  | cntRange lo hi => rw [RowConstraint.holds, decide_eq_true_eq, toNat_fieldCnt]
  | tszNot3 =>
    rw [RowConstraint.holds, bne_iff_ne, ← toNat_fieldTsz]
    exact BitVec.toNat_ne_iff_ne.symm

end Sys2Proof
end

section
/-! The AES round of a block of equal bytes (spec/40_aes_round.md R152), the words of the variant-independent commands, and the
command `AESRND` (R160). -/

namespace Sys2Proof

/-! ### The round of a block of equal bytes -/

/-- R147: a column of equal bytes is a fixed point of the mixing, the sum of its coefficients being `2 ^ 3 ^ 1 ^ 1 = 1`. -/
theorem mixColumnByte_same (a : Byte) (r : Nat) : mixColumnByte a a a a r = a := by
  have hsum : mul2 a ^^^ mul3 a = a := by rw [mul2, mul3, ← BitVec.xor_assoc, BitVec.xor_self, BitVec.zero_xor]
  fun_cases mixColumnByte a a a a r <;> grind

theorem mixColumns_const (a : Byte) : mixColumns (Block.ofFn fun _ => a) = Block.ofFn fun _ => a := by
  have hbytes : mixColumns (Block.ofFn fun _ => a) = Block.ofFn fun j => mixColumnByte a a a a (j % 4) := rfl
  simp only [hbytes, mixColumnByte_same]

/-- R152: of a block of equal bytes only the substitution and the key remain. -/
theorem aesRound_const (a : Byte) (k : Block) :
    aesRound (Block.ofFn fun _ => a) k = (Block.ofFn fun _ => sbox a).xor k := by
  have hsub : shiftRows (subBytes (Block.ofFn fun _ => a)) = Block.ofFn fun _ => sbox a := rfl
  rw [aesRound, hsub, mixColumns_const, addRoundKey]

/-! ### Words that are no variant-independent command's -/

theorem toNat_fieldOp (w : Word32) : (fieldOp w).toNat = w.toNat % 256 := by
  rw [fieldOp, BitVec.extractLsb'_toNat, Nat.shiftRight_zero]

theorem decodePlain_eq_reservedField {w : Word32} {i : Instr}
    (h : ¬ (fieldVar w = .v128L ∧ fieldTsz w = 0 ∧ fieldCnt w = 0)) : decodePlain w i = .error .reservedField :=
  if_pos (by tauto)

/-- R106, R324: the opcode of a variant-independent command admits no other bit. -/
theorem decode_eq_reservedField_of_plain {w : Word32} {op : Op} (hplain : op = .aesrnd ∨ op = .zeroize ∨ op = .verify)
    (hop : fieldOp w = op.code) (hne : w ≠ commandWord op .v128L 0 0) : decode w = .error .reservedField := by
  have hop' : opOfCode (fieldOp w) = some op := opOfCode_eq_some_iff.2 hop.symm
  rw [decode, hop']
  by_cases hres : w &&& reservedMask = 0
  · have hfields : ¬ (fieldVar w = .v128L ∧ fieldTsz w = 0 ∧ fieldCnt w = 0) := by
      rintro ⟨hvar, htsz, hcnt⟩
      apply hne
      rw [eq_commandWord_of_checks hop' hres, hvar, htsz, hcnt]
    obtain rfl | rfl | rfl := hplain <;> exact (if_neg (not_not.2 hres)).trans (decodePlain_eq_reservedField hfields)
  · exact if_pos hres

end Sys2Proof

namespace Sys2Proof.Machine

theorem State.cmdError_eq_failed (e : ErrCode) (s : State) : s.cmdError e = s.Failed e := by
  rw [State.cmdError, State.Failed]
  cases s.err <;> rfl

theorem execute_of_decode_error {w : Word32} {e : ErrCode} (h : decode w = .error e) (s : State) :
    execute w s = .next (s.Failed e) := by
  rw [execute, h, ← State.cmdError_eq_failed]

/-- Settles O18: no state check stands before the effect of `AESRND`; its word has no free bit; the round of the zero block is the
substitution of its bytes, and the example is evaluated. -/
theorem aesrndResult : Obligations.AesrndResult := by
  unfold Obligations.AesrndResult
  refine ⟨fun s => exec_of_check_none rfl, decode_encode (i := .aesrnd) rfl, fun w s hop hrest => ?_, fun j hj => ?_, ?_⟩
  · have hcode : fieldOp w = Op.aesrnd.code := BitVec.eq_of_toNat_eq ((toNat_fieldOp w).trans hop)
    refine execute_of_decode_error (decode_eq_reservedField_of_plain (.inl rfl) hcode ?_) s
    rintro rfl
    exact hrest rfl
  · have hround : aesRound Block.zero Block.zero = Block.ofFn fun _ => sbox 0 :=
      (aesRound_const 0 Block.zero).trans (Block.xor_zero _)
    rw [hround, Block.get_ofFn _ hj]
    rfl
  · decide +kernel

end Sys2Proof.Machine
end

section
/-! The errors of decoding (spec/60_exceptions.md R323–R325): for each shape of command the words that fail and their code, in the
order of checks of spec/30_encoding.md R106. -/

namespace Sys2Proof

/-! ### The fields' conditions as numbers -/

theorem fieldVar_eq_v128L_iff (w : Word32) : fieldVar w = .v128L ↔ w.toNat / 256 % 2 = 0 := by
  have hbit : w.getLsbD 8 = decide (w.toNat / 256 % 2 = 1) := by
    rw [BitVec.getLsbD, Nat.testBit_eq_decide_div_mod_eq]
  rw [fieldVar, hbit]
  split_ifs with h <;> simp_all

/-- R49: the rate of the command's own variant. -/
theorem rate_fieldVar (w : Word32) : rate (fieldVar w) = if w.toNat / 256 % 2 = 0 then 32 else 16 := by
  simp only [← fieldVar_eq_v128L_iff]
  cases fieldVar w <;> rfl

theorem fieldTsz_eq_zero_iff (w : Word32) : fieldTsz w = 0 ↔ w.toNat / 512 % 4 = 0 := by
  rw [← BitVec.toNat_inj, toNat_fieldTsz]
  rfl

theorem fieldTsz_eq_three_iff (w : Word32) : fieldTsz w = 3 ↔ w.toNat / 512 % 4 = 3 := by
  rw [← BitVec.toNat_inj, toNat_fieldTsz]
  rfl

theorem fieldCnt_eq_zero_iff (w : Word32) : fieldCnt w = 0 ↔ w.toNat / 65536 % 32 = 0 := by
  rw [← BitVec.toNat_inj, toNat_fieldCnt]
  rfl

/-- R104, R325: a count outside its variant's range is 0 or at least the rate. -/
theorem countOk128L_eq_false_iff (n : BitVec 5) : countOk128L n = false ↔ n.toNat = 0 ∨ rate .v128L ≤ n.toNat := by
  rw [countOk128L, decide_eq_false_iff_not, rate]
  omega

theorem countOk256_eq_false_iff (n : BitVec 5) : countOk256 n = false ↔ n.toNat = 0 ∨ rate .v256 ≤ n.toNat := by
  rw [countOk256, decide_eq_false_iff_not, rate]
  omega

/-! ### The errors of each shape of command -/

section
variable {w : Word32} {i i' : Instr} {c c' : BitVec 5 → Instr} {e : ErrCode}

theorem decodePlain_eq_error_iff : decodePlain w i = .error e ↔
    e = .reservedField ∧ (fieldVar w ≠ .v128L ∨ fieldTsz w ≠ 0 ∨ fieldCnt w ≠ 0) := by
  unfold decodePlain
  split_ifs with hfields
  · grind
  · exact iff_of_false nofun fun h => hfields h.2

theorem decodeFull_eq_error_iff : decodeFull w i i' = .error e ↔
    e = .reservedField ∧ (fieldTsz w ≠ 0 ∨ fieldCnt w ≠ 0) := by
  unfold decodeFull
  split_ifs with htsz hcnt
  · grind
  · grind
  · cases fieldVar w <;> exact iff_of_false nofun (by tauto)

theorem decodePartial_eq_error_iff : decodePartial w c c' = .error e ↔
    e = .reservedField ∧ fieldTsz w ≠ 0 ∨
      e = .badCount ∧ fieldTsz w = 0 ∧ ((fieldCnt w).toNat = 0 ∨ rate (fieldVar w) ≤ (fieldCnt w).toNat) := by
  unfold decodePartial
  by_cases htsz : fieldTsz w = 0
  · cases fieldVar w
    · rw [← countOk128L_eq_false_iff]
      grind
    · rw [← countOk256_eq_false_iff]
      grind
  · grind

theorem tagSizeOfCode_eq_none_iff {c : BitVec 2} : tagSizeOfCode c = none ↔ c = 3 := by
  rw [Option.eq_none_iff_forall_ne_some, ← not_iff_not, ← ne_eq c, ← exists_tagSize_code_iff]
  simp only [← tagSizeOfCode_eq_some_iff, ne_eq, not_forall, not_not]

theorem decodeFinal_eq_error_iff : decodeFinal w = .error e ↔
    e = .reservedField ∧ fieldCnt w ≠ 0 ∨ e = .badTagsize ∧ fieldCnt w = 0 ∧ fieldTsz w = 3 := by
  rw [← tagSizeOfCode_eq_none_iff]
  unfold decodeFinal
  cases tagSizeOfCode (fieldTsz w) with
  | none => grind
  | some t => cases fieldVar w <;> grind

end

/-! ### The errors of a word -/

/-- R106: the checks that depend on the opcode, which follow those of the opcode and of the reserved bits. -/
def decodeFields (w : Word32) : Op → Except ErrCode Instr
  | .aesrnd => decodePlain w .aesrnd
  | .zeroize => decodePlain w .zeroize
  | .verify => decodePlain w .verify
  | .init => decodeFull w .init128L .init256
  | .abs => decodeFull w .abs128L .abs256
  | .absp => decodePartial w .absp128L .absp256
  | .enc => decodeFull w .enc128L .enc256
  | .encp => decodePartial w .encp128L .encp256
  | .dec => decodeFull w .dec128L .dec256
  | .decp => decodePartial w .decp128L .decp256
  | .final => decodeFinal w

theorem decode_of_op_none {w : Word32} (h : opOfCode (fieldOp w) = none) : decode w = .error .illegalOp := by
  rw [decode, h]

theorem decode_of_op_some {w : Word32} {op : Op} (h : opOfCode (fieldOp w) = some op) :
    decode w = if w &&& reservedMask ≠ 0 then .error .reservedField else decodeFields w op := by
  rw [decode, h]
  cases op <;> rfl

theorem decodeFields_ne_illegalOp (w : Word32) (op : Op) : decodeFields w op ≠ .error .illegalOp := by
  cases op <;> simp [decodeFields, decodePlain_eq_error_iff, decodeFull_eq_error_iff, decodePartial_eq_error_iff,
    decodeFinal_eq_error_iff]

theorem decode_eq_illegalOp_iff {w : Word32} : decode w = .error .illegalOp ↔ opOfCode (fieldOp w) = none := by
  refine ⟨fun h => ?_, decode_of_op_none⟩
  cases hop : opOfCode (fieldOp w) with
  | none => rfl
  | some op =>
    rw [decode_of_op_some hop] at h
    split_ifs at h with hres
    · cases h
    · exact absurd h (decodeFields_ne_illegalOp w op)

/-- R101: the eleven opcodes. -/
theorem mem_opcodes_iff {n : Nat} :
    n ∈ [0x01, 0x02, 0x03, 0x10, 0x11, 0x12, 0x13, 0x14, 0x15, 0x16, 0x17] ↔ ∃ op : Op, op.code.toNat = n := by
  constructor
  · simp only [List.mem_cons, List.not_mem_nil, or_false]
    rintro (rfl | rfl | rfl | rfl | rfl | rfl | rfl | rfl | rfl | rfl | rfl)
    exacts [⟨.aesrnd, rfl⟩, ⟨.zeroize, rfl⟩, ⟨.verify, rfl⟩, ⟨.init, rfl⟩, ⟨.abs, rfl⟩, ⟨.absp, rfl⟩, ⟨.enc, rfl⟩,
      ⟨.encp, rfl⟩, ⟨.dec, rfl⟩, ⟨.decp, rfl⟩, ⟨.final, rfl⟩]
  · rintro ⟨op, rfl⟩
    cases op <;> decide

theorem opOfCode_fieldOp_eq_some_iff {w : Word32} {op : Op} :
    opOfCode (fieldOp w) = some op ↔ op.code.toNat = w.toNat % 256 := by
  rw [opOfCode_eq_some_iff, ← BitVec.toNat_inj, toNat_fieldOp]

theorem opOfCode_fieldOp_eq_none_iff {w : Word32} : opOfCode (fieldOp w) = none ↔
    w.toNat % 256 ∉ [0x01, 0x02, 0x03, 0x10, 0x11, 0x12, 0x13, 0x14, 0x15, 0x16, 0x17] := by
  rw [mem_opcodes_iff, Option.eq_none_iff_forall_ne_some, not_exists]
  exact forall_congr' fun op => not_congr opOfCode_fieldOp_eq_some_iff

/-- R106: every word but those with `ILLEGAL_OP` has a legal opcode. -/
theorem exists_op_of_decode_error {w : Word32} {e : ErrCode} (h : decode w = .error e) (he : e ≠ .illegalOp) :
    ∃ op : Op, op.code.toNat = w.toNat % 256 := by
  cases hop : opOfCode (fieldOp w) with
  | none =>
    rw [decode_of_op_none hop] at h
    cases h
    exact absurd rfl he
  | some op => exact ⟨op, opOfCode_fieldOp_eq_some_iff.1 hop⟩

section
variable {w : Word32} {op : Op} (hop : op.code.toNat = w.toNat % 256)
include hop

theorem decode_eq_reservedField_iff_of_op :
    decode w = .error .reservedField ↔ w &&& reservedMask ≠ 0 ∨ decodeFields w op = .error .reservedField := by
  rw [decode_of_op_some (opOfCode_fieldOp_eq_some_iff.2 hop)]
  split_ifs with hres
  · exact iff_of_true rfl (.inl hres)
  · exact (or_iff_right hres).symm

theorem decode_eq_error_iff_of_op {e : ErrCode} (he : e ≠ .reservedField) :
    decode w = .error e ↔ w &&& reservedMask = 0 ∧ decodeFields w op = .error e := by
  rw [decode_of_op_some (opOfCode_fieldOp_eq_some_iff.2 hop)]
  split_ifs with hres
  · exact iff_of_false (fun h => he (Except.error.inj h).symm) fun h => hres h.1
  · exact (and_iff_right (not_not.1 hres)).symm

end

/-! ### The errors of a command's fields, opcode by opcode -/

theorem decodeFields_eq_reservedField_iff (w : Word32) (op : Op) : decodeFields w op = .error .reservedField ↔
    (op.code.toNat ∈ [0x01, 0x02, 0x03] ∧
      (w.toNat / 256 % 2 ≠ 0 ∨ w.toNat / 512 % 4 ≠ 0 ∨ w.toNat / 65536 % 32 ≠ 0)) ∨
    (op.code.toNat ∈ [0x10, 0x11, 0x12, 0x13, 0x14, 0x15, 0x16] ∧ w.toNat / 512 % 4 ≠ 0) ∨
    (op.code.toNat ∈ [0x10, 0x11, 0x13, 0x15, 0x17] ∧ w.toNat / 65536 % 32 ≠ 0) := by
  cases op with
  | aesrnd | zeroize | verify =>
    simp [decodeFields, decodePlain_eq_error_iff, Op.code, ← fieldVar_eq_v128L_iff, ← fieldTsz_eq_zero_iff,
      ← fieldCnt_eq_zero_iff]
  | init | abs | enc | dec =>
    simp [decodeFields, decodeFull_eq_error_iff, Op.code, ← fieldTsz_eq_zero_iff, ← fieldCnt_eq_zero_iff]
  | absp | encp | decp => simp [decodeFields, decodePartial_eq_error_iff, Op.code, ← fieldTsz_eq_zero_iff]
  | final => simp [decodeFields, decodeFinal_eq_error_iff, Op.code, ← fieldCnt_eq_zero_iff]

theorem decodeFields_eq_badTagsize_iff (w : Word32) (op : Op) : decodeFields w op = .error .badTagsize ↔
    op.code.toNat = 0x17 ∧ w.toNat / 65536 % 32 = 0 ∧ w.toNat / 512 % 4 = 3 := by
  cases op with
  | aesrnd | zeroize | verify => simp [decodeFields, decodePlain_eq_error_iff, Op.code]
  | init | abs | enc | dec => simp [decodeFields, decodeFull_eq_error_iff, Op.code]
  | absp | encp | decp => simp [decodeFields, decodePartial_eq_error_iff, Op.code]
  | final => simp [decodeFields, decodeFinal_eq_error_iff, Op.code, ← fieldTsz_eq_three_iff, ← fieldCnt_eq_zero_iff]

theorem decodeFields_eq_badCount_iff (w : Word32) (op : Op) : decodeFields w op = .error .badCount ↔
    op.code.toNat ∈ [0x12, 0x14, 0x16] ∧ w.toNat / 512 % 4 = 0 ∧
      (w.toNat / 65536 % 32 = 0 ∨ w.toNat / 65536 % 32 ≥ if w.toNat / 256 % 2 = 0 then 32 else 16) := by
  cases op with
  | aesrnd | zeroize | verify => simp [decodeFields, decodePlain_eq_error_iff, Op.code]
  | init | abs | enc | dec => simp [decodeFields, decodeFull_eq_error_iff, Op.code]
  | absp | encp | decp =>
    simp [decodeFields, decodePartial_eq_error_iff, Op.code, ← fieldTsz_eq_zero_iff, ← rate_fieldVar, ← toNat_fieldCnt]
  | final => simp [decodeFields, decodeFinal_eq_error_iff, Op.code]

/-- R106: the words with an error that a command's fields decide, for the opcodes `C` and the condition `Q` on the fields. -/
theorem decode_eq_error_iff_of_fields {w : Word32} {e : ErrCode} (C : Nat → Prop) {Q : Prop} (hill : e ≠ .illegalOp)
    (hres : e ≠ .reservedField) (hfields : ∀ op : Op, decodeFields w op = .error e ↔ C op.code.toNat ∧ Q)
    (hlegal : ∀ n, C n → n ∈ [0x01, 0x02, 0x03, 0x10, 0x11, 0x12, 0x13, 0x14, 0x15, 0x16, 0x17]) :
    decode w = .error e ↔ C (w.toNat % 256) ∧ w &&& reservedMask = 0 ∧ Q := by
  rw [and_left_comm]
  constructor
  · intro h
    obtain ⟨op, hop⟩ := exists_op_of_decode_error h hill
    rwa [decode_eq_error_iff_of_op hop hres, hfields, hop] at h
  · intro h
    obtain ⟨op, hop⟩ := mem_opcodes_iff.1 (hlegal _ h.2.1)
    rwa [decode_eq_error_iff_of_op hop hres, hfields, hop]

end Sys2Proof

namespace Sys2Proof.Machine

/-- Settles O5: only the check of the opcode gives `ILLEGAL_OP`, and the opcodes are the eleven numbers. -/
theorem illegalOpcodeFails : Obligations.IllegalOpcodeFails := by
  unfold Obligations.IllegalOpcodeFails
  have hiff (w : Word32) := decode_eq_illegalOp_iff.trans (opOfCode_fieldOp_eq_none_iff (w := w))
  exact ⟨hiff, fun w s hop => execute_of_decode_error ((hiff w).2 hop) s, by decide +kernel⟩

/-- Settles O6: of a legal opcode, a word fails by its reserved bits or by the fields its command does not use. -/
theorem reservedFieldFails : Obligations.ReservedFieldFails := by
  unfold Obligations.ReservedFieldFails
  intro w
  refine ⟨?_, fun s hdec => execute_of_decode_error hdec s⟩
  have hiff {op : Op} (hop : op.code.toNat = w.toNat % 256) :=
    (decode_eq_reservedField_iff_of_op hop).trans (or_congr_right (decodeFields_eq_reservedField_iff w op))
  constructor
  · intro h
    obtain ⟨op, hop⟩ := exists_op_of_decode_error h (by decide)
    rw [hiff hop, hop] at h
    exact ⟨mem_opcodes_iff.2 ⟨op, hop⟩, h⟩
  · rintro ⟨hlegal, h⟩
    obtain ⟨op, hop⟩ := mem_opcodes_iff.1 hlegal
    rw [hiff hop, hop]
    exact h

/-- Settles O7: the two errors are those of the fields of `FINAL` and of the partial-block commands. -/
theorem badFieldValueFails : Obligations.BadFieldValueFails := by
  unfold Obligations.BadFieldValueFails
  intro w
  refine ⟨?_, ?_, fun s e _ hdec => execute_of_decode_error hdec s⟩
  · refine decode_eq_error_iff_of_fields (· = 0x17) (by decide) (by decide) (decodeFields_eq_badTagsize_iff w) ?_
    rintro _ rfl
    decide
  · refine decode_eq_error_iff_of_fields (· ∈ [0x12, 0x14, 0x16]) (by decide) (by decide)
      (decodeFields_eq_badCount_iff w) fun n hn => ?_
    have hpartial : [0x12, 0x14, 0x16] ⊆ [0x01, 0x02, 0x03, 0x10, 0x11, 0x12, 0x13, 0x14, 0x15, 0x16, 0x17] := by decide
    exact hpartial hn

end Sys2Proof.Machine
end

section
/-! The errors of the state checks (spec/60_exceptions.md R321, R326–R328): which error a command ends with, and when. -/

namespace Sys2Proof.Machine

/-! ### A failing command ends with the code of its check -/

theorem exec_eq_failed {i : Instr} {s : State} {e : ErrCode} (h : stateCheck i s = e) (he : e ≠ .none) :
    exec i s = .next (s.Failed e) := by
  subst h
  rw [exec_of_check_error he, State.cmdError_eq_failed]

/-- R321, R322: `LASTERR` after a command is the outcome of its state check. -/
theorem lasterr_of_exec {i : Instr} {s t : State} (h : exec i s = .next t) : t.lasterr = stateCheck i s := by
  obtain ⟨hc, rfl⟩ | ⟨-, rfl⟩ := exec_cases h
  · exact hc.symm
  · rfl

theorem execute_of_decode_ok {w : Word32} {i : Instr} (h : decode w = .ok i) (s : State) : execute w s = exec i s := by
  rw [execute, h]

/-- R321: a word that ends with an error leaves the state of that error, whether decoding fails or a state check. -/
theorem eq_failed_of_execute {w : Word32} {s t : State} (h : execute w s = .next t) (he : t.lasterr ≠ .none) :
    t = s.Failed t.lasterr := by
  cases hdec : decode w with
  | error e =>
    rw [execute_of_decode_error hdec] at h
    cases h
    rfl
  | ok i =>
    rw [execute_of_decode_ok hdec] at h
    rw [lasterr_of_exec h] at he ⊢
    rw [exec_eq_failed rfl he] at h
    exact (Host.Outcome.next.inj h).symm

theorem coreStep_of_pending {w : Word32} {s t : State} (hp : s.pending = some w) (h : execute w s = .next t) :
    coreStep s = .next t.clearPending := by
  rw [coreStep, hp]
  simp only [h]

/-- Settles O11: every error is taken as the rule says, and the core step of the word clears the latch. -/
theorem errorChangesOnlyStatus : Obligations.ErrorChangesOnlyStatus := by
  unfold Obligations.ErrorChangesOnlyStatus
  intro w s t h he
  have ht := eq_failed_of_execute h he
  refine ⟨ht, fun hp => ?_⟩
  rw [coreStep_of_pending hp h, ← ht]
  rfl

/-! ### The outcomes of the checks -/

section
variable {v : Variant} {legal : List Phase} {c : BitVec 64} {k : Nat} {s : State}

theorem orderCheck_eq_variant_iff : orderCheck v legal s = .variant ↔ s.phase ≠ .idle ∧ v ≠ s.var := by
  unfold orderCheck
  split_ifs with hvar <;> grind

theorem orderCheck_eq_sequence_iff :
    orderCheck v legal s = .sequence ↔ s.phase ∉ legal ∧ (s.phase = .idle ∨ v = s.var) := by
  unfold orderCheck
  split_ifs with hvar hphase <;> grind

theorem orderCheck_ne_length : orderCheck v legal s ≠ .length := by
  unfold orderCheck
  split_ifs <;> exact nofun

/-- R331: the check `LENGTH` comes after the two others, and hides none of them. -/
theorem blockCheck_eq_orderCheck_iff {e : ErrCode} (he : e ≠ .none) (hl : e ≠ .length) :
    blockCheck v legal c k s = e ↔ orderCheck v legal s = e := by
  unfold blockCheck
  split
  · next h =>
    rw [h]
    split_ifs <;> simp [he.symm, hl.symm]
  · rfl

theorem blockCheck_eq_variant_iff : blockCheck v legal c k s = .variant ↔ s.phase ≠ .idle ∧ v ≠ s.var :=
  (blockCheck_eq_orderCheck_iff (by decide) (by decide)).trans orderCheck_eq_variant_iff

theorem blockCheck_eq_sequence_iff :
    blockCheck v legal c k s = .sequence ↔ s.phase ∉ legal ∧ (s.phase = .idle ∨ v = s.var) :=
  (blockCheck_eq_orderCheck_iff (by decide) (by decide)).trans orderCheck_eq_sequence_iff

theorem blockCheck_eq_length_iff : blockCheck v legal c k s = .length ↔
    (s.phase ∈ legal ∧ (s.phase = .idle ∨ v = s.var)) ∧ c.toNat + k ≥ 2 ^ 61 := by
  have hnone : orderCheck v legal s = .none ↔ s.phase ∈ legal ∧ (s.phase = .idle ∨ v = s.var) :=
    orderCheck_eq_none_iff.trans and_comm
  rw [← hnone, show 2 ^ 61 = Config.countLimit from rfl]
  unfold blockCheck
  split
  · next h => simp [h]
  · next h => exact iff_of_false orderCheck_ne_length fun h' => h h'.1

end

/-! ### The phases of R51's table -/

theorem mem_absorbPhases {p : Phase} : p ∈ absorbPhases ↔ p = .ad := List.mem_singleton

theorem mem_messagePhases {p : Phase} : p ∈ messagePhases ↔ p = .ad ∨ p = .adPart ∨ p = .msg := by
  simp [messagePhases]

theorem mem_finalPhases {p : Phase} : p ∈ finalPhases ↔ p = .ad ∨ p = .adPart ∨ p = .msg ∨ p = .msgPart := by
  simp [finalPhases]

theorem not_legalIn_idle {i : Instr} {v : Variant} (h : sessionVariant i = some v) : ¬ LegalIn i .idle := by
  cases i with
  | aesrnd | zeroize | verify | init128L | init256 => cases h
  | _ => simp [LegalIn]

/-! ### Which command fails with which error -/

/-- R326. -/
theorem stateCheck_eq_variant_iff {i : Instr} {s : State} :
    stateCheck i s = .variant ↔ ∃ v, sessionVariant i = some v ∧ s.phase ≠ .idle ∧ v ≠ s.var := by
  cases i with
  | aesrnd | zeroize | init128L | init256 => exact iff_of_false nofun nofun
  | verify => by_cases hdone : s.phase = .done <;> simp [stateCheck, sessionVariant, hdone]
  | final128L | final256 => simp [stateCheck, sessionVariant, orderCheck_eq_variant_iff]
  | _ => simp [stateCheck, sessionVariant, blockCheck_eq_variant_iff]

/-- R327, after `VARIANT`. -/
theorem stateCheck_eq_sequence_iff {i : Instr} {s : State} : stateCheck i s = .sequence ↔
    ¬ LegalIn i s.phase ∧ (s.phase = .idle ∨ ∀ v, sessionVariant i = some v → v = s.var) := by
  cases i with
  | aesrnd | zeroize | init128L | init256 => exact iff_of_false nofun fun h => h.1 trivial
  | verify => simp [stateCheck, sessionVariant, LegalIn]
  | abs128L | absp128L | abs256 | absp256 =>
    simp [stateCheck, sessionVariant, LegalIn, blockCheck_eq_sequence_iff, mem_absorbPhases]
  | final128L | final256 => simp [stateCheck, sessionVariant, LegalIn, orderCheck_eq_sequence_iff, mem_finalPhases]
  | _ => simp [stateCheck, sessionVariant, LegalIn, blockCheck_eq_sequence_iff, mem_messagePhases]

/-- R328: the command adds bytes to a counter, which would reach `2 ^ 61`. -/
def ReachesLimit (i : Instr) (s : State) : Prop :=
  (0 < adAdded i ∧ s.adcnt.toNat + adAdded i ≥ 2 ^ 61) ∨ (0 < msgAdded i ∧ s.msgcnt.toNat + msgAdded i ≥ 2 ^ 61)

/-- R51, R331: the commands that add AD bytes. -/
theorem stateCheck_of_adAdded {i : Instr} (h : 0 < adAdded i) : ∃ v, sessionVariant i = some v ∧
    (∀ p, LegalIn i p ↔ p ∈ absorbPhases) ∧ ∀ s, stateCheck i s = blockCheck v absorbPhases s.adcnt (adAdded i) s := by
  cases i with
  | abs128L | absp128L | abs256 | absp256 => exact ⟨_, rfl, fun p => mem_absorbPhases.symm, fun s => rfl⟩
  | _ => cases h

/-- R51, R331: the commands that add message bytes. -/
theorem stateCheck_of_msgAdded {i : Instr} (h : 0 < msgAdded i) : ∃ v, sessionVariant i = some v ∧
    (∀ p, LegalIn i p ↔ p ∈ messagePhases) ∧ ∀ s, stateCheck i s = blockCheck v messagePhases s.msgcnt (msgAdded i) s := by
  cases i with
  | enc128L | encp128L | dec128L | decp128L | enc256 | encp256 | dec256 | decp256 =>
    exact ⟨_, rfl, fun p => mem_messagePhases.symm, fun s => rfl⟩
  | _ => cases h

theorem stateCheck_eq_length_of_reachesLimit {i : Instr} {s : State} (hlegal : LegalIn i s.phase)
    (hvar : sessionVariant i = some s.var) (hlim : ReachesLimit i s) : stateCheck i s = .length := by
  obtain ⟨hadd, hlim⟩ | ⟨hadd, hlim⟩ := hlim
  · obtain ⟨v, hv, hphases, hcheck⟩ := stateCheck_of_adAdded hadd
    rw [hcheck, blockCheck_eq_length_iff]
    exact ⟨⟨(hphases _).1 hlegal, .inr (Option.some.inj (hv.symm.trans hvar))⟩, hlim⟩
  · obtain ⟨v, hv, hphases, hcheck⟩ := stateCheck_of_msgAdded hadd
    rw [hcheck, blockCheck_eq_length_iff]
    exact ⟨⟨(hphases _).1 hlegal, .inr (Option.some.inj (hv.symm.trans hvar))⟩, hlim⟩

theorem pos_of_countOk128L {n : BitVec 5} (h : countOk128L n = true) : 0 < n.toNat := (of_decide_eq_true h).1

theorem pos_of_countOk256 {n : BitVec 5} (h : countOk256 n = true) : 0 < n.toNat := (of_decide_eq_true h).1

/-- R104, R328: a well-formed command that the length check can stop adds at least one byte. -/
theorem adds_of_stateCheck_eq_length {i : Instr} {s : State} (h : stateCheck i s = .length) (wf : i.wellFormed = true) :
    0 < adAdded i ∨ 0 < msgAdded i := by
  cases i with
  | aesrnd | zeroize | init128L | init256 => cases h
  | verify =>
    rw [stateCheck] at h
    split_ifs at h
  | final128L | final256 => exact absurd h orderCheck_ne_length
  | abs128L | abs256 => exact .inl (by decide)
  | enc128L | dec128L | enc256 | dec256 => exact .inr (by decide)
  | absp128L => exact .inl (pos_of_countOk128L wf)
  | absp256 => exact .inl (pos_of_countOk256 wf)
  | encp128L | decp128L => exact .inr (pos_of_countOk128L wf)
  | encp256 | decp256 => exact .inr (pos_of_countOk256 wf)

theorem reachesLimit_of_stateCheck_eq_length {i : Instr} {s : State} (h : stateCheck i s = .length)
    (wf : i.wellFormed = true) : ReachesLimit i s := by
  obtain hadd | hadd := adds_of_stateCheck_eq_length h wf
  · obtain ⟨v, -, -, hcheck⟩ := stateCheck_of_adAdded hadd
    exact .inl ⟨hadd, (blockCheck_eq_length_iff.1 ((hcheck s).symm.trans h)).2⟩
  · obtain ⟨v, -, -, hcheck⟩ := stateCheck_of_msgAdded hadd
    exact .inr ⟨hadd, (blockCheck_eq_length_iff.1 ((hcheck s).symm.trans h)).2⟩

/-! ### The statements -/

/-- Settles O12: the check is `VARIANT` exactly for a session command of the other variant outside `IDLE`, and in `IDLE` no session
command is legal. -/
theorem variantMismatchFails : Obligations.VariantMismatchFails := by
  unfold Obligations.VariantMismatchFails
  refine ⟨fun i v s hv => ⟨fun hphase hvar => ?_, fun hidle => ?_⟩, fun i s t hexec hlast => ?_⟩
  · exact exec_eq_failed (stateCheck_eq_variant_iff.2 ⟨v, hv, hphase, hvar⟩) (by decide)
  · have hillegal : ¬ LegalIn i s.phase := hidle ▸ not_legalIn_idle hv
    exact exec_eq_failed (stateCheck_eq_sequence_iff.2 ⟨hillegal, .inl hidle⟩) (by decide)
  · exact stateCheck_eq_variant_iff.1 ((lasterr_of_exec hexec).symm.trans hlast)

/-- Settles O13: the check is `SEQUENCE` exactly for a command that is not legal in the phase and is not stopped by `VARIANT`. -/
theorem outOfPhaseFails : Obligations.OutOfPhaseFails := by
  unfold Obligations.OutOfPhaseFails
  refine ⟨fun i s hillegal hvar => ?_, fun i s t hlegal hexec hlast => ?_⟩
  · exact exec_eq_failed (stateCheck_eq_sequence_iff.2 ⟨hillegal, hvar⟩) (by decide)
  · exact (stateCheck_eq_sequence_iff.1 ((lasterr_of_exec hexec).symm.trans hlast)).1 hlegal

/-- Settles O14: the check is `LENGTH` where the counter would reach the limit; in the example 32 bytes reach it and 31 do not. -/
theorem lengthLimitFails : Obligations.LengthLimitFails := by
  unfold Obligations.LengthLimitFails
  have hfails {i : Instr} {s : State} (hlegal : LegalIn i s.phase) (hvar : sessionVariant i = some s.var)
      (hlim : ReachesLimit i s) : exec i s = .next (s.Failed .length) :=
    exec_eq_failed (stateCheck_eq_length_of_reachesLimit hlegal hvar hlim) (by decide)
  refine ⟨fun i s => hfails, fun i s t hexec hlast wf => ?_, fun s hphase hvar hcnt => ⟨?_, ?_⟩⟩
  · exact reachesLimit_of_stateCheck_eq_length ((lasterr_of_exec hexec).symm.trans hlast) wf
  · exact hfails hphase (congrArg some hvar.symm) (.inl (by rw [hcnt]; decide))
  · have hcheck : stateCheck (.absp128L 31) s = .none :=
      blockCheck_of_session hvar (mem_absorbPhases.2 hphase) (by rw [hcnt]; decide)
    refine ⟨_, exec_of_check_none hcheck, rfl, ?_⟩
    have hadd : (effect (.absp128L 31) s).succeed.adcnt = s.adcnt + BitVec.ofNat 64 31 := rfl
    rw [hadd, hcnt]
    decide

end Sys2Proof.Machine
end

section
/-! The round trip of decoder and encoder as statements, and the assembler (spec/30_encoding.md section 3, R111). -/

namespace Sys2Proof

/-- Settles O1: the decoder reads the fields the encoder wrote. -/
theorem decodeOfEncode : Obligations.DecodeOfEncode := by
  unfold Obligations.DecodeOfEncode
  exact fun _ => decode_encode

/-- Settles O2: a word that passes the decoder's checks is made of its fields. -/
theorem encodeOfDecode : Obligations.EncodeOfDecode := by
  unfold Obligations.EncodeOfDecode
  exact fun _ _ => encode_of_decode

/-- Settles O4: each of the nine words is the encoder's word of its command. -/
theorem writtenWordsDecode : Obligations.WrittenWordsDecode := by
  unfold Obligations.WrittenWordsDecode
  exact ⟨decode_encode (i := .aesrnd) rfl, decode_encode (i := .zeroize) rfl, decode_encode (i := .verify) rfl,
    decode_encode (i := .init128L) rfl, decode_encode (i := .absp128L 8) rfl, decode_encode (i := .encp128L 31) rfl,
    decode_encode (i := .abs256) rfl, decode_encode (i := .decp256 14) rfl, decode_encode (i := .final256 .t32) rfl⟩

/-! ### Operands -/

theorem countOfBytes_eq_some_iff {r n : Nat} {c : BitVec 5} :
    countOfBytes r n = some c ↔ (1 ≤ n ∧ n ≤ r - 1) ∧ BitVec.ofNat 5 n = c := by
  rw [countOfBytes]
  split_ifs with h <;> simp [h]

theorem countOfBytes_ne_none_iff {r n : Nat} : countOfBytes r n ≠ none ↔ 1 ≤ n ∧ n ≤ r - 1 := by
  simp [countOfBytes]

theorem tagSizeOfBytes_ne_none_iff {t : Nat} : tagSizeOfBytes t ≠ none ↔ t = 0 ∨ t = 16 ∨ t = 32 := by
  rw [tagSizeOfBytes]
  split_ifs <;> simp_all

/-- R104, R111: what the assembler takes as the count of a `.128L` command is in the range of its encoding. -/
theorem countOk128L_of_countOfBytes {n : Nat} {c : BitVec 5} (h : countOfBytes 32 n = some c) : countOk128L c = true := by
  obtain ⟨hn, rfl⟩ := countOfBytes_eq_some_iff.1 h
  rw [countOk128L, decide_eq_true_eq, BitVec.toNat_ofNat]
  omega

theorem countOk256_of_countOfBytes {n : Nat} {c : BitVec 5} (h : countOfBytes 16 n = some c) : countOk256 c = true := by
  obtain ⟨hn, rfl⟩ := countOfBytes_eq_some_iff.1 h
  rw [countOk256, decide_eq_true_eq, BitVec.toNat_ofNat]
  omega

/-! ### Lines -/

/-- R111: every command the assembler accepts is one the encoding admits. The cases are the rows of `parseCommand`, in
order. -/
theorem wellFormed_of_parseCommand {op : Op} {v : Option Variant} {a : Option Nat} {i : Instr}
    (h : parseCommand op v a = some i) : i.wellFormed = true := by
  unfold parseCommand at h
  split at h
  case h_12 | h_14 | h_16 =>
    obtain ⟨c, hc, rfl⟩ := Option.map_eq_some_iff.1 h
    exact countOk128L_of_countOfBytes hc
  case h_13 | h_15 | h_17 =>
    obtain ⟨c, hc, rfl⟩ := Option.map_eq_some_iff.1 h
    exact countOk256_of_countOfBytes hc
  case h_18 | h_19 =>
    obtain ⟨t, -, rfl⟩ := Option.map_eq_some_iff.1 h
    rfl
  case h_20 => cases h
  all_goals
    cases h
    rfl

theorem assemble_ne_none_iff {op : Op} {v : Option Variant} {a : Option Nat} :
    assemble op v a ≠ none ↔ parseCommand op v a ≠ none :=
  not_congr Option.map_eq_none_iff

/-- Settles O8: the commands the assembler accepts are well formed, so their words decode; it accepts the operands of the
encoding's ranges. -/
theorem assembledWordsDecode : Obligations.AssembledWordsDecode := by
  unfold Obligations.AssembledWordsDecode
  refine ⟨fun op v a w h => ?_, fun v t => ?_, fun op v n hop => ?_, by decide, by decide, by decide⟩
  · obtain ⟨i, hi, rfl⟩ := Option.map_eq_some_iff.1 h
    exact ⟨i, hi, decode_encode (wellFormed_of_parseCommand hi)⟩
  · rw [assemble_ne_none_iff, ← tagSizeOfBytes_ne_none_iff]
    cases v <;> exact not_congr Option.map_eq_none_iff
  · rw [assemble_ne_none_iff]
    obtain rfl | rfl | rfl := hop <;> cases v <;>
      exact (not_congr Option.map_eq_none_iff).trans countOfBytes_ne_none_iff

end Sys2Proof
end

section
/-! Everything a well-formed command can do, by family, and what a step can do to a session: the six invariants
(spec/10_state.md, spec/70_reset_and_hazards.md section 1). -/

namespace Sys2Proof

/-! ### The words no AEGIS-256 command writes -/

/-- R32: the state words AEGIS-256 does not use are zero. -/
def Lanes.UnusedClear (S : Lanes) : Prop := S.s6 = Block.zero ∧ S.s7 = Block.zero

/-- R172: an update of AEGIS-256 reads and writes neither. -/
theorem update256_unusedClear {S : Lanes} (h : S.UnusedClear) (m : Block) : (update256 S m).UnusedClear := h

theorem load256_unusedClear (k0 k1 n0 n1 : Block) : (load256 k0 k1 n0 n1).UnusedClear := ⟨rfl, rfl⟩

theorem init256_unusedClear (K N : Data) : (init256 K N).UnusedClear :=
  Function.Iterate.rec Lanes.UnusedClear (load256_unusedClear K.lo K.hi N.lo N.hi) (fun _ h => h) 4

theorem fin256_unusedClear {S : Lanes} (h : S.UnusedClear) (a m : BitVec 64) : (fin256 S a m).UnusedClear :=
  Function.Iterate.rec Lanes.UnusedClear h (fun _ h => h) 7

theorem padData_hi_eq_zero (b : Block) (n : Nat) : (padData b.get n).hi = Block.zero :=
  Block.ext_get fun i _ => by
    rw [← Data.get_hi, get_padData, Block.get_of_ge b (by omega), ite_self, Block.get_zero]

theorem rate_pos (v : Variant) : 0 < rate v := by cases v <;> decide

theorem decode_ne_error_none (w : Word32) : decode w ≠ .error .none := by
  intro h
  obtain ⟨op, hop⟩ := exists_op_of_decode_error h (by decide)
  obtain ⟨-, hfields⟩ := (decode_eq_error_iff_of_op hop (by decide)).1 h
  revert hfields
  cases op <;> simp [decodeFields, decodePlain_eq_error_iff, decodeFull_eq_error_iff, decodePartial_eq_error_iff,
    decodeFinal_eq_error_iff]

end Sys2Proof

namespace Sys2Proof.Machine

/-! ### The families of commands -/

/-- R51, R104: `k` bytes are a full block of variant `v`, which leaves the phase `full`, or a partial one, which leaves `part`. -/
def IsBlock (v : Variant) (full part : Phase) (k : Nat) (next : Phase) : Prop :=
  k = rate v ∧ next = full ∨ (0 < k ∧ k < rate v) ∧ next = part

theorem isBlock_full (v : Variant) (full part : Phase) : IsBlock v full part (rate v) full := .inl ⟨rfl, rfl⟩

theorem isBlock_part128L {n : BitVec 5} (h : countOk128L n = true) (full part : Phase) :
    IsBlock .v128L full part n.toNat part :=
  .inr ⟨⟨pos_of_countOk128L h, n.isLt⟩, rfl⟩

theorem isBlock_part256 {n : BitVec 5} (h : countOk256 n = true) (full part : Phase) :
    IsBlock .v256 full part n.toNat part :=
  .inr ⟨⟨pos_of_countOk256 h, Nat.lt_succ_of_le (of_decide_eq_true h : 1 ≤ n.toNat ∧ n.toNat ≤ 15).2⟩, rfl⟩

/-- R32: from the session's state words `S` a command of variant `v` goes to `T`. -/
def KeepsUnusedClear (v : Variant) (S T : Lanes) : Prop := v = .v256 → S.UnusedClear → T.UnusedClear

/-- Everything a well-formed command can do from `s` when its state check passes: its family's effect. -/
inductive CommandEffect (s : State) : State → Prop
  | round (out : Block) : CommandEffect s (s.roundOutput out)
  | zeroize : CommandEffect s s.zeroized
  | verify (d : Byte) (hphase : s.phase = .done) : CommandEffect s (s.verdict d)
  | start (v : Variant) (T : Lanes) (hunused : v = .v256 → T.UnusedClear) : CommandEffect s (s.startSession v T)
  | absorb (T : Lanes) (k : Nat) (next : Phase) (hphase : s.phase = .ad) (hblock : IsBlock s.var .ad .adPart k next)
      (hlimit : s.adcnt.toNat + k < 2 ^ 61) (hunused : KeepsUnusedClear s.var s.S T) :
      CommandEffect s (s.absorb T k next)
  | message (T : Lanes) (out : Data) (k : Nat) (next : Phase) (hphase : s.phase = .ad ∨ s.phase = .adPart ∨ s.phase = .msg)
      (hblock : IsBlock s.var .msg .msgPart k next) (hlimit : s.msgcnt.toNat + k < 2 ^ 61)
      (hunused : KeepsUnusedClear s.var s.S T) (hout : s.var = .v256 → out.hi = Block.zero) :
      CommandEffect s (s.message T out k next)
  | finish (T : Lanes) (c : TagSize) (tag : List Byte)
      (hphase : s.phase = .ad ∨ s.phase = .adPart ∨ s.phase = .msg ∨ s.phase = .msgPart)
      (hunused : KeepsUnusedClear s.var s.S T) : CommandEffect s (s.finish T c tag)

/-- R331: what the passed checks of `ABS` and `ABSP` say. -/
theorem mayAbsorb_of_blockCheck {v : Variant} {k : Nat} {s : State}
    (h : blockCheck v absorbPhases s.adcnt k s = .none) : s.MayAbsorb v k := by
  obtain ⟨hvar, hphase, hlimit⟩ := blockCheck_eq_none_iff.1 h
  rw [mem_absorbPhases] at hphase
  exact ⟨hphase, (hvar.resolve_left (by rw [hphase]; decide)).symm, hlimit⟩

/-- R331: what the passed checks of the message commands say. -/
theorem mayProcess_of_blockCheck {v : Variant} {k : Nat} {s : State}
    (h : blockCheck v messagePhases s.msgcnt k s = .none) : s.MayProcess v k := by
  obtain ⟨hvar, hphase, hlimit⟩ := blockCheck_eq_none_iff.1 h
  rw [mem_messagePhases] at hphase
  exact ⟨hphase, (hvar.resolve_left (by grind)).symm, hlimit⟩

/-- R331: what the passed checks of `FINAL` say. -/
theorem mayFinish_of_orderCheck {v : Variant} {s : State} (h : orderCheck v finalPhases s = .none) : s.MayFinish v := by
  obtain ⟨hvar, hphase⟩ := orderCheck_eq_none_iff.1 h
  rw [mem_finalPhases] at hphase
  exact ⟨hphase, (hvar.resolve_left (by grind)).symm⟩

section
variable {s : State}

theorem commandEffect_absorb {v : Variant} {k : Nat} (h : blockCheck v absorbPhases s.adcnt k s = .none) {T : Lanes}
    {next : Phase} (hblock : IsBlock v .ad .adPart k next) (hunused : KeepsUnusedClear v s.S T) :
    CommandEffect s (s.absorb T k next) := by
  obtain ⟨hphase, rfl, hlimit⟩ := mayAbsorb_of_blockCheck h
  exact .absorb T k next hphase hblock hlimit hunused

theorem commandEffect_message {v : Variant} {k : Nat} (h : blockCheck v messagePhases s.msgcnt k s = .none) {T : Lanes}
    {out : Data} {next : Phase} (hblock : IsBlock v .msg .msgPart k next) (hunused : KeepsUnusedClear v s.S T)
    (hout : v = .v256 → out.hi = Block.zero) : CommandEffect s (s.message T out k next) := by
  obtain ⟨hphase, rfl, hlimit⟩ := mayProcess_of_blockCheck h
  exact .message T out k next hphase hblock hlimit hunused hout

theorem commandEffect_finish {v : Variant} (h : orderCheck v finalPhases s = .none) {T : Lanes} (c : TagSize)
    (tag : List Byte) (hunused : KeepsUnusedClear v s.S T) : CommandEffect s (s.finish T c tag) := by
  obtain ⟨hphase, rfl⟩ := mayFinish_of_orderCheck h
  exact .finish T c tag hphase hunused

/-- Every well-formed command whose checks pass has the effect of its family. -/
theorem commandEffect_of_check_none {i : Instr} (wf : i.wellFormed = true) (h : stateCheck i s = .none) :
    CommandEffect s (effect i s) := by
  cases i with
  | aesrnd => exact .round _
  | zeroize => exact .zeroize
  | verify =>
    rw [stateCheck] at h
    split_ifs at h with hphase
    exact .verify _ hphase
  | init128L => exact .start _ _ nofun
  | init256 => exact .start _ _ fun _ => init256_unusedClear _ _
  | abs128L => exact commandEffect_absorb h (isBlock_full _ _ _) nofun
  | absp128L n => exact commandEffect_absorb h (isBlock_part128L wf _ _) nofun
  | enc128L | dec128L => exact commandEffect_message h (isBlock_full _ _ _) nofun nofun
  | encp128L n | decp128L n => exact commandEffect_message h (isBlock_part128L wf _ _) nofun nofun
  | final128L t => exact commandEffect_finish h _ _ nofun
  | abs256 => exact commandEffect_absorb h (isBlock_full _ _ _) fun _ hS => update256_unusedClear hS _
  | absp256 n => exact commandEffect_absorb h (isBlock_part256 wf _ _) fun _ hS => update256_unusedClear hS _
  | enc256 | dec256 =>
    exact commandEffect_message h (isBlock_full _ _ _) (fun _ hS => update256_unusedClear hS _) fun _ => rfl
  | encp256 n =>
    exact commandEffect_message h (isBlock_part256 wf _ _) (fun _ hS => update256_unusedClear hS _)
      fun _ => padData_hi_eq_zero _ _
  | decp256 n =>
    exact commandEffect_message h (isBlock_part256 wf _ _) (fun _ hS => update256_unusedClear hS _) fun _ => rfl
  | final256 t => exact commandEffect_finish h _ _ fun _ hS => fin256_unusedClear hS _ _

end

/-! ### What every step keeps -/

/-- A core step keeps what an error, a command and the clearing of the latch keep. -/
theorem coreStep_keeps {P : State → Prop} (hclear : ∀ s : State, P s → P s.clearPending)
    (herror : ∀ (s : State) (e : ErrCode), e ≠ .none → P s → P (s.cmdError e))
    (heffect : ∀ s u : State, CommandEffect s u → P s → P u.succeed) {s t : State} (hs : P s) (h : coreStep s = .next t) :
    P t := by
  obtain ⟨-, rfl⟩ | ⟨w, e, -, hdec, rfl⟩ | ⟨w, i, u, -, hdec, hexec, rfl⟩ := coreStep_cases h
  · exact hs
  · exact hclear _ (herror _ _ (fun he => decode_ne_error_none w (he ▸ hdec)) hs)
  · refine hclear _ ?_
    obtain ⟨hc, rfl⟩ | ⟨hc, rfl⟩ := exec_cases hexec
    · exact heffect _ _ (commandEffect_of_check_none (encode_of_decode hdec).2 hc) hs
    · exact herror _ _ hc hs

/-- The parts of a step, each of which keeps what the step is to keep. -/
structure KeptByParts (P : State → Prop) : Prop where
  inputs : ∀ (s : State) (l : List Input), P s → P { s with inputs := l }
  clearPending : ∀ s : State, P s → P s.clearPending
  error : ∀ (s : State) (e : ErrCode), e ≠ .none → P s → P (s.cmdError e)
  effect : ∀ s u : State, CommandEffect s u → P s → P u.succeed
  read : ∀ (s : State) (off : Nat), P s → P (s.afterRead off)
  write : ∀ (s : State) (off : Nat) (v : Word32), P s → P (s.hostWrite off v)
  reset : ∀ s : State, P s.clearAll

theorem KeptByParts.step {P : State → Prop} (hP : KeptByParts P) {s t : State} (hs : P s) (h : step s = .next t) : P t := by
  have hcore {s t : State} (hs : P s) (h : coreStep s = .next t) : P t :=
    coreStep_keeps hP.clearPending hP.error hP.effect hs h
  obtain ⟨-, h⟩ | ⟨rest, -, h⟩ | ⟨rest, off, size, -, -, rfl⟩ | ⟨rest, off, size, v, -, -, rfl⟩ | ⟨rest, -, rfl⟩ :=
    step_cases h
  · exact hcore hs h
  · exact hcore (hP.inputs s rest hs) h
  · exact hP.read _ _ (hP.inputs s rest hs)
  · exact hP.write _ _ _ (hP.inputs s rest hs)
  · exact hP.reset _

/-- R77: a write is dropped, or it is its register's. -/
theorem hostWrite_keeps {P : State → Prop} {s : State} {v : Word32} (hbwe : P { s with bwe := true })
    (hreg : ∀ r : Reg, P (s.writeReg v r)) (off : Nat) : P (s.hostWrite off v) := by
  rw [State.hostWrite]
  split
  · exact hbwe
  · exact hreg _

/-- Settles O33: an error sets both fields unless `ERR` is set already, a write of 1 to bit 2 of `STATUS` clears both, and the
effect of a command writes both or neither. -/
theorem errorFieldsStayAgreed : Obligations.ErrorFieldsStayAgreed := by
  unfold Obligations.ErrorFieldsStayAgreed
  intro s t
  refine KeptByParts.step (P := State.ErrorFieldsAgree)
    { inputs := fun _ _ h => h, clearPending := fun _ h => h, error := fun s e he h => ?_, effect := fun s u hu h => ?_,
      read := fun _ _ h => h, write := fun s off v h => hostWrite_keeps h (fun r => ?_) off,
      reset := fun _ => iff_of_true rfl rfl }
  · rw [State.ErrorFieldsAgree, State.cmdError_err, State.cmdError_errcode]
    cases herr : s.err with
    | true => exact iff_of_false nofun fun hcode => by simp [h.2 hcode] at herr
    | false => exact iff_of_false nofun he
  · cases hu with
    | zeroize => exact iff_of_true rfl rfl
    | verify d => simpa [State.ErrorFieldsAgree] using h
    | _ => exact h
  · cases r with
    | status =>
      simp only [State.ErrorFieldsAgree, State.writeReg, State.writeStatus_err, State.writeStatus_errcode]
      split_ifs
      · exact iff_of_true rfl rfl
      · exact h
    | _ => exact h

/-! ### Sessions -/

/-- `s` with what is no part of a session as after reset. -/
def State.session (s : State) : State :=
  { State.reset with
    S := s.S, dout := s.dout, tagout := s.tagout, adcnt := s.adcnt, msgcnt := s.msgcnt, auth := s.auth, var := s.var,
    phase := s.phase, tlen := s.tlen }

theorem session_writeReg (s : State) (v : Word32) (r : Reg) : (s.writeReg v r).session = s.session := by cases r <;> rfl

theorem session_hostWrite (s : State) (off : Nat) (v : Word32) : (s.hostWrite off v).session = s.session :=
  hostWrite_keeps (P := fun t => t.session = s.session) rfl (session_writeReg s v) off

/-- What concerns the session alone is kept by every step if it holds after reset and is kept by the effect of every command: no
access of the host and no error changes the session. -/
theorem step_keeps_session {P : State → Prop} (hsession : ∀ s : State, P s.session ↔ P s) (hreset : P State.reset)
    (heffect : ∀ s u : State, CommandEffect s u → P s → P u) {s t : State} (hs : P s) (h : step s = .next t) : P t := by
  have hcongr {s u : State} (he : s.session = u.session) (hs : P s) : P u := by rwa [← hsession, ← he, hsession]
  have parts : KeptByParts P :=
    { inputs := fun s l => hcongr rfl
      clearPending := fun s => hcongr rfl
      error := fun s e _ => hcongr rfl
      effect := fun s u hu hs => hcongr (s := u) rfl (heffect s u hu hs)
      read := fun s off => hcongr rfl
      write := fun s off v => hcongr (session_hostWrite s off v).symm
      reset := fun s => hcongr (s := State.reset) rfl hreset }
  exact parts.step hs h

/-! ### The invariants after reset -/

theorem reset_countersBounded : State.reset.CountersBounded := ⟨by decide, by decide⟩

theorem reset_unusedHalvesClear : State.reset.UnusedHalvesClear := nofun

theorem reset_tagFieldsAgree : State.reset.TagFieldsAgree := ⟨fun h => absurd rfl h, nofun, fun i _ => Data.get_zero i⟩

theorem reset_idleClear : State.reset.IdleClear := fun _ => ⟨rfl, rfl, rfl, rfl, rfl, rfl, rfl⟩

/-- Settles O37: each invariant, at the reset values. -/
theorem invariantsAtReset : Obligations.InvariantsAtReset := by
  unfold Obligations.InvariantsAtReset
  exact ⟨reset_countersBounded, reset_unusedHalvesClear, iff_of_true rfl rfl, reset_tagFieldsAgree, ⟨rfl, rfl⟩,
    reset_idleClear⟩

/-! ### The invariants of sessions -/

theorem toNat_add_ofNat {c : BitVec 64} {k : Nat} (h : c.toNat + k < 2 ^ 61) :
    (c + BitVec.ofNat 64 k).toNat = c.toNat + k := by
  rw [BitVec.toNat_add, BitVec.toNat_ofNat]
  omega

/-- Settles O31: a counter is cleared, or added to after the length check of the sum. -/
theorem countersStayBounded : Obligations.CountersStayBounded := by
  unfold Obligations.CountersStayBounded
  intro s t
  refine step_keeps_session (fun _ => Iff.rfl) reset_countersBounded fun s u hu h => ?_
  obtain ⟨had, hmsg⟩ := h
  cases hu with
  | zeroize => exact reset_countersBounded
  | start v T => exact reset_countersBounded
  | absorb T k next _ _ hlimit =>
    exact ⟨(toNat_add_ofNat hlimit).trans_lt hlimit, hmsg⟩
  | message T out k next _ _ hlimit =>
    exact ⟨had, (toNat_add_ofNat hlimit).trans_lt hlimit⟩
  | verify d => simpa [State.CountersBounded] using And.intro had hmsg
  | round out => exact ⟨had, hmsg⟩
  | finish T c tag => exact ⟨had, hmsg⟩

theorem State.unusedHalvesClear_iff {s : State} :
    s.UnusedHalvesClear ↔ (s.var = .v256 → s.S.UnusedClear ∧ s.dout.hi = Block.zero) :=
  forall_congr' fun _ => and_assoc.symm

/-- Settles O32: the updates of AEGIS-256 write neither state word, and every output in its session is one word and zeros. -/
theorem unusedHalvesStayClear : Obligations.UnusedHalvesStayClear := by
  unfold Obligations.UnusedHalvesStayClear
  intro s t
  refine step_keeps_session (fun _ => Iff.rfl) reset_unusedHalvesClear fun s u hu h => ?_
  rw [State.unusedHalvesClear_iff] at h ⊢
  cases hu with
  | round out => exact fun hvar => ⟨(h hvar).left, rfl⟩
  | zeroize => exact nofun
  | verify d =>
    intro hvar
    rw [State.verdict_var] at hvar
    rw [State.verdict_S, State.verdict_dout]
    refine (h hvar).imp_right fun hdout => ?_
    split
    · exact hdout
    · rfl
  | start v T hunused => exact fun hvar => ⟨hunused hvar, rfl⟩
  | absorb T k next _ _ _ hunused => exact fun hvar => (h hvar).imp_left (hunused hvar)
  | message T out k next _ _ _ hunused hout => exact fun hvar => ⟨hunused hvar (h hvar).left, hout hvar⟩
  | finish T c tag _ hunused => exact fun hvar => (h hvar).imp_left (hunused hvar)

/-- R50: before phase `DONE` no tag is in `TAGOUT` and no verdict in `AUTH`. -/
theorem State.TagFieldsAgree.of_ne_done {s : State} (h : s.TagFieldsAgree) (hphase : s.phase ≠ .done) :
    s.tlen = .t0 ∧ s.auth = false ∧ ∀ i, tagBytes s.tlen ≤ i → s.tagout.get i = 0 := by
  obtain ⟨htlen, hauth, htagout⟩ := h
  exact ⟨not_not.1 (mt htlen hphase), Bool.eq_false_iff.2 (mt hauth hphase), htagout⟩

/-- A state without tag and verdict. -/
theorem tagFieldsAgree_of_no_tag {s : State}
    (h : s.tlen = .t0 ∧ s.auth = false ∧ ∀ i, tagBytes s.tlen ≤ i → s.tagout.get i = 0) : s.TagFieldsAgree := by
  obtain ⟨htlen, hauth, htagout⟩ := h
  exact ⟨fun hne => absurd htlen hne, fun htrue => by simp [hauth] at htrue, htagout⟩

/-- Settles O34: `FINAL` pads the tag with zeros and enters `DONE`, where alone `VERIFY` is legal; `INIT` clears tag and verdict, and
the block commands find none. -/
theorem tagFieldsStayAgreed : Obligations.TagFieldsStayAgreed := by
  unfold Obligations.TagFieldsStayAgreed
  intro s t
  refine step_keeps_session (fun _ => Iff.rfl) reset_tagFieldsAgree fun s u hu h => ?_
  cases hu with
  | round out => exact h
  | zeroize => exact reset_tagFieldsAgree
  | verify d hphase => exact ⟨by simp [hphase], by simp [hphase], by simpa using h.2.2⟩
  | start v T => exact tagFieldsAgree_of_no_tag ⟨rfl, rfl, fun i _ => Data.get_zero i⟩
  | absorb T k next hphase => exact tagFieldsAgree_of_no_tag (h.of_ne_done (by rw [hphase]; decide))
  | message T out k next hphase => exact tagFieldsAgree_of_no_tag (h.of_ne_done (by grind))
  | finish T c tag =>
    refine ⟨fun _ => rfl, fun _ => rfl, fun i hi => ?_⟩
    have hbeyond : ¬ i < tagBytes c := Nat.not_lt.2 hi
    rw [State.finish_tagout, get_padData, if_neg fun hlt => hbeyond hlt.2]

/-- Settles O36: only `ZEROIZE` and reset enter `IDLE`, and no command that is legal there but `AESRND` keeps it. -/
theorem idleStaysClear : Obligations.IdleStaysClear := by
  unfold Obligations.IdleStaysClear
  intro s t
  refine step_keeps_session (fun _ => Iff.rfl) reset_idleClear fun s u hu h => ?_
  cases hu with
  | round out => exact h
  | zeroize => exact reset_idleClear
  | verify d hphase => exact fun hidle => by simp [hphase] at hidle
  | start v T => exact nofun
  | absorb T k next _ hblock => exact fun hidle => by grind [IsBlock, State.absorb_phase]
  | message T out k next _ hblock => exact fun hidle => by grind [IsBlock, State.message_phase]
  | finish T c tag => exact nofun

/-! ### Blocks and byte counts -/

/-- R51: the count after another block: a multiple of the rate after a full one, none after a partial one. -/
theorem IsBlock.count {v : Variant} {full part next : Phase} {k c : Nat} (h : IsBlock v full part k next)
    (hc : c % rate v = 0) : (next = full ∧ (c + k) % rate v = 0) ∨ (next = part ∧ (c + k) % rate v ≠ 0) := by
  obtain ⟨rfl, rfl⟩ | ⟨⟨hpos, hlt⟩, rfl⟩ := h
  · exact .inl ⟨rfl, by rw [Nat.add_mod_right, hc]⟩
  · refine .inr ⟨rfl, ?_⟩
    rw [Nat.add_mod, hc, Nat.zero_add, Nat.mod_mod, Nat.mod_eq_of_lt hlt]
    exact hpos.ne'

theorem IsBlock.pos {v : Variant} {full part next : Phase} {k : Nat} (h : IsBlock v full part k next) : 0 < k := by
  obtain ⟨rfl, -⟩ | ⟨⟨hpos, -⟩, -⟩ := h
  · exact rate_pos v
  · exact hpos

/-- R51: while message blocks may come, the bytes processed are full blocks. -/
theorem State.BlocksAccounted.msgcnt_mod {s : State} (h : s.BlocksAccounted)
    (hphase : s.phase = .ad ∨ s.phase = .adPart ∨ s.phase = .msg) : s.msgcnt.toNat % rate s.var = 0 := by
  rw [State.BlocksAccounted] at h
  obtain hp | hp | hp := hphase <;> rw [hp] at h
  · rw [h.2]
    exact Nat.zero_mod _
  · rw [h.2]
    exact Nat.zero_mod _
  · exact h.1

/-- Settles O35: a session starts with both counts 0, a block command adds its block to full blocks only, and the phase it leaves
says whether its block was full. -/
theorem blocksStayAccounted : Obligations.BlocksStayAccounted := by
  unfold Obligations.BlocksStayAccounted
  intro s t
  refine step_keeps_session (fun _ => Iff.rfl) ⟨rfl, rfl⟩ fun s u hu h => ?_
  cases hu with
  | round out => exact h
  | zeroize => exact ⟨rfl, rfl⟩
  | verify d hphase => simp [State.BlocksAccounted, hphase]
  | start v T => exact ⟨Nat.zero_mod _, rfl⟩
  | absorb T k next hphase hblock hlimit =>
    rw [State.BlocksAccounted, hphase] at h
    obtain ⟨hmod, hmsg⟩ := h
    obtain ⟨rfl, hcount⟩ | ⟨rfl, hcount⟩ := hblock.count hmod <;> rw [← toNat_add_ofNat hlimit] at hcount <;>
      exact ⟨hcount, hmsg⟩
  | message T out k next hphase hblock hlimit =>
    have hsum := toNat_add_ofNat hlimit
    obtain ⟨rfl, hcount⟩ | ⟨rfl, hcount⟩ := hblock.count (h.msgcnt_mod hphase) <;> rw [← hsum] at hcount
    · exact ⟨hcount, hsum ▸ Nat.add_pos_right _ hblock.pos⟩
    · exact hcount
  | finish T c tag => trivial

end Sys2Proof.Machine
end

section
/-! What each command and each step does, as statements (spec/10_state.md sections 5 and 6, spec/42_aegis128l.md,
spec/43_aegis256.md, spec/44_verify_control.md, spec/70_reset_and_hazards.md). -/

namespace Sys2Proof

theorem getD_toBytes_append_left (a b : Block) {j : Nat} (h : j < 16) : (a.toBytes ++ b.toBytes).getD j 0 = a.get j := by
  rw [List.getD_append _ _ _ _ (by simpa using h), Block.getD_toBytes]

theorem getD_toBytes_append_right (a b : Block) (j : Nat) : (a.toBytes ++ b.toBytes).getD (j + 16) 0 = b.get j := by
  rw [List.getD_append_right _ _ _ _ (by simp), Block.length_toBytes, Nat.add_sub_cancel, Block.getD_toBytes]

/-- R11: byte `j` of the second word of `Pad(x, n, 32)`. -/
theorem get_padData_hi (x : Nat → Byte) (n : Nat) {j : Nat} (h : j < 16) :
    (padData x n).get (j + 16) = if j + 16 < n then x (j + 16) else 0 := by
  rw [get_padData]
  congr 1
  rw [eq_iff_iff]
  omega

theorem get_padData_of_lt (x : Nat → Byte) (n : Nat) {j : Nat} (h : j < 32) :
    (padData x n).get j = if j < n then x j else 0 := by
  rw [get_padData]
  simp [h]

theorem get_padBlock_of_lt (x : Nat → Byte) (n : Nat) {j : Nat} (h : j < 16) :
    (padBlock x n).get j = if j < n then x j else 0 := by
  rw [get_padBlock]
  simp [h]

end Sys2Proof

namespace Sys2Proof.Machine

/-! ### Steps -/

theorem exec_completes (i : Instr) (s : State) : ∃ t, exec i s = .next t := by
  by_cases hc : stateCheck i s = .none
  · exact ⟨_, exec_of_check_none hc⟩
  · exact ⟨_, exec_of_check_error hc⟩

theorem step_of_inputs_nil {s : State} (h : s.inputs = []) : step s = coreStep s := by rw [step, h]

theorem step_of_inputs_cons {s : State} {e : Input} {rest : List Input} (h : s.inputs = e :: rest) :
    step s = inputStep e { s with inputs := rest } := by rw [step, h]

/-- Settles O9: the core step completes the pending word, and a command's completion is `exec`. -/
theorem stepRunsPendingCommand : Obligations.StepRunsPendingCommand := by
  unfold Obligations.StepRunsPendingCommand
  intro s w i hdec
  have hcore {u : State} (hp : u.pending = some w) : coreStep u = match exec i u with
      | .next t => .next { t with pending := none }
      | .fault f => .fault f
      | .refused r => .refused r := by
    obtain ⟨t, ht⟩ := exec_completes i u
    rw [coreStep_of_pending hp ((execute_of_decode_ok hdec u).trans ht), ht]
    rfl
  refine ⟨fun hp hin => ?_, fun rest hp hin => ?_, ?_⟩
  · exact (step_of_inputs_nil hin).trans (hcore hp)
  · exact (step_of_inputs_cons hin).trans (hcore (u := { s with inputs := rest }) hp)
  · have hword : BitVec.ofNat 32 (w.toNat % 2 ^ 32) = w := by
      rw [Nat.mod_eq_of_lt w.isLt, BitVec.ofNat_toNat, BitVec.setWidth_eq]
    rw [State.withFetchWord, hword]
    exact hcore (u := { s with pending := some w }) rfl

/-- Settles O10: the core step of a word that does not decode, and of an empty latch. -/
theorem stepReportsUndecodableWord : Obligations.StepReportsUndecodableWord := by
  unfold Obligations.StepReportsUndecodableWord
  intro s rest hin
  rw [step_of_inputs_cons hin, inputStep]
  refine ⟨fun w e hp hdec => coreStep_of_pending hp (execute_of_decode_error hdec _), fun hp => ?_⟩
  rw [coreStep, hp]

/-- Settles O38: the step of an access is decided by R75 alone. -/
theorem refusedAccessFaults : Obligations.RefusedAccessFaults := by
  unfold Obligations.RefusedAccessFaults
  have hadmitted (off size : Nat) : admitted off size = true ↔ size = 4 ∧ off % 4 = 0 ∧ off < 0x200 := decide_eq_true_iff
  intro s rest off size v
  rw [← hadmitted]
  refine ⟨fun h => ⟨fun hin => ?_, fun hin => ?_⟩, fun h => ⟨fun hin => ?_, fun hin => ?_⟩⟩ <;>
    rw [step_of_inputs_cons hin, inputStep]
  · exact if_neg h
  · exact if_neg h
  · exact if_pos h
  · exact if_pos h

/-- Settles O46: the event is consumed and everything but the model's own fields takes its reset value. -/
theorem resetAnyTime : Obligations.ResetAnyTime := by
  unfold Obligations.ResetAnyTime
  intro s rest hin
  rw [step_of_inputs_cons hin, inputStep]
  rfl

/-! ### Phases and status fields -/

/-- R331: a command whose checks pass is legal in the phase. -/
theorem legalIn_of_check_none {i : Instr} {s : State} (h : stateCheck i s = .none) : LegalIn i s.phase := by
  by_contra hillegal
  by_cases hvar : s.phase = .idle ∨ ∀ v, sessionVariant i = some v → v = s.var
  · simp [stateCheck_eq_sequence_iff.2 ⟨hillegal, hvar⟩] at h
  · push Not at hvar
    obtain ⟨hidle, v, hv, hne⟩ := hvar
    simp [stateCheck_eq_variant_iff.2 ⟨v, hv, hidle, hne⟩] at h

theorem effect_phase {i : Instr} {s : State} (h : LegalIn i s.phase) : (effect i s).phase = nextPhase i s.phase := by
  cases i with
  | verify => exact (State.verdict_phase s _).trans h
  | _ => rfl

/-- Settles O15: a command succeeds when its checks pass, and its effect sets the phase. -/
theorem phaseTable : Obligations.PhaseTable := by
  unfold Obligations.PhaseTable
  intro i s t hexec hlast
  have hc : stateCheck i s = .none := (lasterr_of_exec hexec).symm.trans hlast
  have hlegal := legalIn_of_check_none hc
  rw [exec_of_check_none hc] at hexec
  cases hexec
  exact ⟨hlegal, effect_phase hlegal⟩

theorem foldl_or_eq_zero_iff (f : Nat → Byte) (l : List Nat) (d : Byte) :
    l.foldl (fun d i => d ||| f i) d = 0#8 ↔ d = 0#8 ∧ ∀ i ∈ l, f i = 0#8 := by
  induction l generalizing d with
  | nil => simp
  | cons i l ih => simp [ih, BitVec.or_eq_zero_iff, and_assoc]

/-- R270: no bit of the accumulated difference is set exactly when the bytes agree. -/
theorem tagDifference_eq_zero_iff (a b : Data) (t : Nat) :
    tagDifference a b t = 0 ↔ ∀ i, i < t → a.get i = b.get i := by
  simp [tagDifference, foldl_or_eq_zero_iff (fun i => a.get i ^^^ b.get i), BitVec.xor_eq_zero_iff]

theorem effect_verify_auth (s : State) : (effect .verify s).auth = true ↔
    ∀ i, i < tagBytes s.tlen → s.tagin.get i = s.tagout.get i := by
  rw [effect, State.verdict_auth, decide_eq_true_iff, tagDifference_eq_zero_iff]

theorem execute_of_error {w : Word32} {e : ErrCode} {s : State} (he : e ≠ .none)
    (h : decode w = .error e ∨ ∃ i, decode w = .ok i ∧ stateCheck i s = e) : execute w s = .next (s.cmdError e) := by
  obtain hdec | ⟨i, hdec, rfl⟩ := h
  · rw [execute_of_decode_error hdec, State.cmdError_eq_failed]
  · rw [execute_of_decode_ok hdec, exec_of_check_error he]

/-- Settles O16: the fields of each command's effect, and those of an error. -/
theorem statusFieldTable : Obligations.StatusFieldTable := by
  unfold Obligations.StatusFieldTable
  refine ⟨fun i s hc => ⟨_, exec_of_check_none hc, rfl, ?_⟩, fun w e s he h => ⟨_, execute_of_error he h, ?_⟩⟩
  · cases i with
    | verify =>
      exact ⟨State.verdict_err s _, State.verdict_errcode s _, effect_verify_auth s, State.verdict_var s _,
        State.verdict_phase s _, State.verdict_tlen s _⟩
    | _ => exact ⟨rfl, rfl, rfl, rfl, rfl, rfl⟩
  · exact ⟨rfl, rfl, rfl, rfl, rfl, rfl, rfl⟩

/-! ### Frames -/

theorem effect_frame_own (i : Instr) (s : State) : (effect i s).pending = s.pending ∧ (effect i s).inputs = s.inputs ∧
    (effect i s).returned = s.returned ∧ (effect i s).draws = s.draws := by
  cases i with
  | verify => simp [effect]
  | _ => exact ⟨rfl, rfl, rfl, rfl⟩

theorem effect_frame_host {i : Instr} (h : i ≠ .zeroize) (s : State) : (effect i s).key = s.key ∧
    (effect i s).nonce = s.nonce ∧ (effect i s).din = s.din ∧ (effect i s).tagin = s.tagin ∧ (effect i s).bwe = s.bwe := by
  cases i with
  | zeroize => exact absurd rfl h
  | verify => simp [effect]
  | _ => exact ⟨rfl, rfl, rfl, rfl, rfl⟩

theorem effect_frame_error {i : Instr} (h : i ≠ .zeroize) (s : State) :
    (effect i s).err = s.err ∧ (effect i s).errcode = s.errcode := by
  cases i with
  | zeroize => exact absurd rfl h
  | verify => simp [effect]
  | _ => exact ⟨rfl, rfl⟩

/-- Settles O17: an error leaves all of it; the effect of each family leaves what its row says. -/
theorem commandFrame : Obligations.CommandFrame := by
  unfold Obligations.CommandFrame
  intro i s t h
  obtain ⟨-, rfl⟩ | ⟨-, rfl⟩ := exec_cases h
  · obtain ⟨hpending, hinputs, hreturned, hdraws⟩ := effect_frame_own i s
    refine ⟨hpending, hinputs, hreturned, hdraws, fun hne => ?_⟩
    obtain ⟨hkey, hnonce, hdin, htagin, hbwe⟩ := effect_frame_host hne s
    refine ⟨hkey, hnonce, hdin, htagin, hbwe, ?_⟩
    cases i <;> simp [effect]
  · refine ⟨rfl, rfl, rfl, rfl, fun _ => ⟨rfl, rfl, rfl, rfl, rfl, ?_⟩⟩
    cases i <;> simp

/-! ### The variant-independent commands and `INIT` -/

theorem decode_zeroize : decode 0x00000002 = .ok .zeroize := decode_encode (i := .zeroize) rfl

/-- What only `ZEROIZE` clears. -/
theorem execute_keeps_host {w : Word32} (hw : w ≠ 0x00000002) {s t : State} (h : execute w s = .next t) :
    t.key = s.key ∧ t.nonce = s.nonce ∧ t.din = s.din ∧ t.tagin = s.tagin ∧ t.bwe = s.bwe ∧
      (s.err = true → t.err = true ∧ t.errcode = s.errcode) := by
  have herror (e : ErrCode) (hs : s.err = true) : (s.cmdError e).err = true ∧ (s.cmdError e).errcode = s.errcode := by
    simp [hs]
  cases hdec : decode w with
  | error e =>
    rw [execute_of_decode_error hdec, ← State.cmdError_eq_failed] at h
    cases h
    exact ⟨rfl, rfl, rfl, rfl, rfl, herror e⟩
  | ok i =>
    have hi : i ≠ .zeroize := by
      rintro rfl
      exact hw (encode_of_decode hdec).1.symm
    rw [execute_of_decode_ok hdec] at h
    obtain ⟨-, rfl⟩ | ⟨-, rfl⟩ := exec_cases h
    · obtain ⟨hkey, hnonce, hdin, htagin, hbwe⟩ := effect_frame_host hi s
      obtain ⟨herr, hcode⟩ := effect_frame_error hi s
      exact ⟨hkey, hnonce, hdin, htagin, hbwe, fun hs => ⟨herr.trans hs, hcode⟩⟩
    · exact ⟨rfl, rfl, rfl, rfl, rfl, herror _⟩

/-- Settles O19: `ZEROIZE` has no check; its opcode admits no other bit; every other word's command keeps the host's registers. -/
theorem zeroizeResult : Obligations.ZeroizeResult := by
  unfold Obligations.ZeroizeResult
  refine ⟨fun s => ⟨exec_of_check_none rfl, fun hp => ?_⟩, fun w s hop hrest => ?_, fun w s t hw h => execute_keeps_host hw h⟩
  · exact coreStep_of_pending hp ((execute_of_decode_ok decode_zeroize s).trans (exec_of_check_none rfl))
  · have hcode : fieldOp w = Op.zeroize.code := BitVec.eq_of_toNat_eq ((toNat_fieldOp w).trans hop)
    refine execute_of_decode_error (decode_eq_reservedField_of_plain (.inr (.inl rfl)) hcode ?_) s
    rintro rfl
    exact hrest rfl

/-- Settles O20: the difference is 0 exactly when the bytes agree. -/
theorem verifyResult : Obligations.VerifyResult := by
  unfold Obligations.VerifyResult
  intro s hphase
  rw [exec_of_check_none (i := .verify) (if_pos hphase), ← tagDifference_eq_zero_iff]
  refine ⟨fun h => ?_, fun h => ?_⟩ <;> rw [effect, State.verdict]
  · rw [if_pos h]
    rfl
  · rw [if_neg h]
    rfl

/-- Settles O21: `INIT` has no check, and the load and the updates are those of the rule. -/
theorem init128LResult : Obligations.Init128LResult := by
  unfold Obligations.Init128LResult
  exact ⟨rfl, rfl, fun _ => exec_of_check_none rfl⟩

/-- Settles O22: the same for AEGIS-256, whose schedule is four updates. -/
theorem init256Result : Obligations.Init256Result := by
  unfold Obligations.Init256Result
  exact ⟨rfl, rfl, fun _ => exec_of_check_none rfl⟩

/-! ### The block commands -/

section
variable {s : State} {v : Variant} {k : Nat}

theorem State.MayAbsorb.check (h : s.MayAbsorb v k) : blockCheck v absorbPhases s.adcnt k s = .none := by
  obtain ⟨hphase, hvar, hlimit⟩ := h
  exact blockCheck_of_session hvar (mem_absorbPhases.2 hphase) hlimit

theorem State.MayProcess.check (h : s.MayProcess v k) : blockCheck v messagePhases s.msgcnt k s = .none := by
  obtain ⟨hphase, hvar, hlimit⟩ := h
  exact blockCheck_of_session hvar (mem_messagePhases.2 hphase) hlimit

theorem State.MayFinish.check (h : s.MayFinish v) : orderCheck v finalPhases s = .none := by
  obtain ⟨hphase, hvar⟩ := h
  exact orderCheck_eq_none_iff.2 ⟨.inr hvar.symm, mem_finalPhases.2 hphase⟩

end

/-- R201, R241: a full AD block leaves the phase `AD`, in which alone it is legal. -/
theorem absorb_succeed_of_ad {s : State} (h : s.phase = .ad) (T : Lanes) (k : Nat) : (s.absorb T k .ad).succeed =
    { s with S := T, adcnt := s.adcnt + BitVec.ofNat 64 k, lasterr := .none } := by
  rw [← h]
  rfl

section
variable (s : State) (n : BitVec 5) {j : Nat}

theorem get_partial128L (h : j < 32) : (s.partial128L n).get j = if j < n.toNat then s.din.get j else 0 :=
  get_padData_of_lt _ _ h

theorem get_partial256 (h : j < 16) : (s.partial256 n).get j = if j < n.toNat then s.din.get j else 0 :=
  get_padBlock_of_lt _ _ h

/-- R204, R206: the bytes put out by `ENCP.128L` and by `DECP.128L`. -/
theorem get_output128L (h : j < 32) : (padData ((s.partial128L n).xor (z128 s.S)).get n.toNat).get j =
    if j < n.toNat then s.din.get j ^^^ (z128 s.S).get j else 0 := by
  rw [get_padData_of_lt _ _ h, Data.get_xor, get_partial128L s n h]
  split_ifs <;> rfl

/-- R246: the bytes put out by `DECP.256`. -/
theorem get_recovered256 (h : j < 16) :
    (s.recovered256 n).get j = if j < n.toNat then s.din.get j ^^^ (z256 s.S).get j else 0 := by
  rw [State.recovered256, get_padBlock_of_lt _ _ h, Block.get_xor, get_partial256 s n h]
  split_ifs <;> rfl

/-- R244: the bytes put out by `ENCP.256`. -/
theorem get_output256 (hn : n.toNat ≤ 15) (h : j < 32) : (padData ((s.partial256 n).xor (z256 s.S)).get n.toNat).get j =
    if j < n.toNat then s.din.get j ^^^ (z256 s.S).get j else 0 := by
  rw [get_padData_of_lt _ _ h]
  split_ifs with hj
  · rw [Block.get_xor, get_partial256 s n (by omega), if_pos hj]
  · rfl

/-- R243: the bytes put out by `ENC.256`. -/
theorem get_word256 (j : Nat) : (Data.mk (s.din.lo.xor (z256 s.S)) Block.zero).get j =
    if j < 16 then s.din.get j ^^^ (z256 s.S).get j else 0 := by
  rw [Data.get]
  split_ifs with hj
  · rw [Block.get_xor, Data.get_lo _ hj]
  · exact Block.get_zero _

end

/-- Settles O23: the checks pass, the zero-padded block is `partial128L`, and a full block leaves the phase `AD` as it was. -/
theorem absorb128LResult : Obligations.Absorb128LResult := by
  unfold Obligations.Absorb128LResult
  refine fun s => ⟨fun h => ?_, fun n h => ⟨s.partial128L n, fun j => get_partial128L s n, exec_of_check_none h.check⟩⟩
  rw [exec_of_check_none (i := .abs128L) h.check]
  exact congrArg _ (absorb_succeed_of_ad h.1 _ _)

/-- Settles O24: the same with one word for the block. -/
theorem absorb256Result : Obligations.Absorb256Result := by
  unfold Obligations.Absorb256Result
  refine fun s => ⟨fun h => ?_, fun n h => ⟨s.partial256 n, fun j => get_partial256 s n, exec_of_check_none h.check⟩⟩
  rw [exec_of_check_none (i := .abs256) h.check]
  exact congrArg _ (absorb_succeed_of_ad h.1 _ _)

/-- Settles O25: the padded plaintext is fed back and its XOR with the keystream put out, cut to the count. -/
theorem encrypt128LResult : Obligations.Encrypt128LResult := by
  unfold Obligations.Encrypt128LResult
  exact fun s => ⟨fun h => ⟨_, fun j _ => Data.get_xor _ _ j, exec_of_check_none h.check⟩,
    fun n h => ⟨_, _, fun j => get_partial128L s n, fun j => get_output128L s n, exec_of_check_none h.check⟩⟩

/-- Settles O26: the same with one word; `DOUT` is zero beyond it. -/
theorem encrypt256Result : Obligations.Encrypt256Result := by
  unfold Obligations.Encrypt256Result
  exact fun s => ⟨fun h => ⟨_, fun j _ => get_word256 s j, exec_of_check_none h.check⟩,
    fun n hn h => ⟨_, _, fun j => get_partial256 s n, fun j => get_output256 s n hn, exec_of_check_none h.check⟩⟩

/-- Settles O27: the recovered plaintext is the output, and is what is fed back. -/
theorem decrypt128LResult : Obligations.Decrypt128LResult := by
  unfold Obligations.Decrypt128LResult
  exact fun s => ⟨fun h => ⟨_, fun j _ => Data.get_xor _ _ j, exec_of_check_none h.check⟩,
    fun n h => ⟨_, fun j => get_output128L s n, exec_of_check_none h.check⟩⟩

/-- Settles O28: the same with one word. -/
theorem decrypt256Result : Obligations.Decrypt256Result := by
  unfold Obligations.Decrypt256Result
  refine fun s => ⟨fun h => ⟨_, fun j hj => ?_, exec_of_check_none h.check⟩,
    fun n _ h => ⟨_, fun j => get_recovered256 s n, exec_of_check_none h.check⟩⟩
  rw [Block.get_xor, Data.get_lo _ hj]

/-! ### `FINAL` -/

/-- R207, R247: the tag register byte by byte, for tags made of no word, of the word `x`, and of the words `y` and `z`. -/
theorem get_tagout {tag : TagSize → List Byte} {x y z : Block} (h16 : tag .t16 = x.toBytes)
    (h32 : tag .t32 = y.toBytes ++ z.toBytes) (c : TagSize) {j : Nat} (h : j < 16) :
    (padData (fun i => (tag c).getD i 0) (tagBytes c)).get j = (match c with
      | .t0 => 0
      | .t16 => x.get j
      | .t32 => y.get j) ∧
    (padData (fun i => (tag c).getD i 0) (tagBytes c)).get (j + 16) = (match c with
      | .t0 => 0
      | .t16 => 0
      | .t32 => z.get j) := by
  rw [get_padData_of_lt _ _ (by omega), get_padData_hi _ _ h]
  cases c with
  | t0 => exact ⟨if_neg (Nat.not_lt_zero _), if_neg (Nat.not_lt_zero _)⟩
  | t16 =>
    rw [h16, Block.getD_toBytes]
    exact ⟨if_pos h, if_neg (Nat.not_lt.2 (Nat.le_add_left 16 j))⟩
  | t32 =>
    rw [h32, getD_toBytes_append_left _ _ h, getD_toBytes_append_right]
    exact ⟨if_pos (h.trans (by decide)), if_pos (Nat.add_lt_add_right h 16)⟩

/-- Settles O29: the check passes, the finalized state is the rule's, and the bytes of a tag are those of its words. -/
theorem final128LResult : Obligations.Final128LResult := by
  unfold Obligations.Final128LResult
  refine fun s c h => ⟨_, _, rfl, fun j hj => ?_, exec_of_check_none h.check⟩
  have htag := get_tagout (tag := tag128L (fin128L s.S s.adcnt s.msgcnt)) rfl rfl c hj
  cases c <;>
  · simp only [Block.get_xor] at htag
    exact htag

/-- Settles O30: the same for the six words of AEGIS-256. -/
theorem final256Result : Obligations.Final256Result := by
  unfold Obligations.Final256Result
  refine fun s c h => ⟨_, _, rfl, fun j hj => ?_, exec_of_check_none h.check⟩
  have htag := get_tagout (tag := tag256 (fin256 s.S s.adcnt s.msgcnt)) rfl rfl c hj
  cases c <;>
  · simp only [Block.get_xor] at htag
    exact htag

end Sys2Proof.Machine
end

section
/-! The register window as statements: reads, `STATUS`, and what accesses alone can tell the host (spec/20_memory.md,
spec/10_state.md section 5). -/

namespace Sys2Proof

/-! ### Numbers -/

theorem toNat_append_eq {n m : Nat} (x : BitVec n) (y : BitVec m) : (x ++ y).toNat = x.toNat * 2 ^ m + y.toNat := by
  rw [BitVec.toNat_append, ← Nat.shiftLeft_add_eq_or_of_lt y.isLt, Nat.shiftLeft_eq]

/-- R72, R77: a word of a data register that has been written reads as the value written. -/
theorem Data.word_setWord (d : Data) {k : Nat} (hk : k < 8) (v : Word32) : (d.setWord k v).word k = v := by
  have hbyte {i : Nat} (hi : i < 4) : (d.setWord k v).get (4 * k + i) = BitVec.ofNat 8 (v.toNat / 256 ^ i) := by
    rw [Data.get_setWord_eq_ofNat d k v (by omega), if_pos (by omega), Nat.mul_add_mod, Nat.mod_eq_of_lt hi]
  have hv := v.isLt
  apply BitVec.eq_of_toNat_eq
  rw [Data.toNat_word, hbyte (i := 1) (by omega), hbyte (i := 2) (by omega), hbyte (i := 3) (by omega)]
  have h0 := hbyte (i := 0) (by omega)
  rw [Nat.add_zero] at h0
  simp only [h0, BitVec.toNat_ofNat]
  omega

end Sys2Proof

namespace Sys2Proof.Machine

/-! ### Reads -/

/-- R71: the offset 0x008 is the only one of `STATUS`. -/
theorem regAt_eq_status_iff {off : Nat} : regAt off = .status ↔ off = 0x008 := by
  fun_cases regAt off with
  | case3 _ _ h => exact iff_of_true rfl h
  | case1 h => exact iff_of_false nofun (by omega)
  | case2 _ h => exact iff_of_false nofun (by omega)
  | _ => exact iff_of_false nofun ‹¬ off = 0x008›

/-- R369: when a read takes a draw. -/
theorem isDraw_iff {s : State} {off : Nat} : s.isDraw off = true ↔ s.pending ≠ none ∧ off ≠ 0x000 ∧ off ≠ 0x008 := by
  simp [State.isDraw, State.busy, regAt_eq_id_iff, regAt_eq_status_iff, Option.isSome_iff_ne_none, and_assoc]

theorem State.hostRead_of_not_isDraw {s : State} {off : Nat} (h : s.isDraw off = false) :
    s.hostRead off = s.readReg (regAt off) := by
  simp [State.hostRead, h]

theorem hostRead_status (s : State) : s.hostRead 0x008 = statusWord s := congrArg Prod.fst (rd_status s)

theorem hostRead_id (s : State) : s.hostRead 0x000 = 0xAE610701 := by
  rw [State.hostRead_of_not_isDraw (by simp [State.isDraw, regAt]), regAt_eq_id_iff.2 rfl]
  rfl

/-- R71: the reserved offsets of the window's gap and end. -/
theorem regAt_reserved {off : Nat} (h : 0x020 ≤ off ∧ off < 0x100 ∨ 0x1C0 ≤ off) : regAt off = .reserved := by
  fun_cases regAt off with
  | case14 => rfl
  | _ => omega

/-- Settles O39: the register at each offset, and the draw of a read while busy. -/
theorem hostReadValues : Obligations.HostReadValues := by
  unfold Obligations.HostReadValues
  refine fun s => ⟨hostRead_id s, hostRead_status s, fun hp => ?_, fun w off hp hid hstatus => ?_, fun off => ?_⟩
  · have hread {off : Nat} {r : Reg} (h : regAt off = r) : s.hostRead off = s.readReg r := by
      rw [State.hostRead_of_idle hp, h]
    exact ⟨hread rfl, hread rfl, hread rfl, hread rfl, hread rfl, hread rfl,
      fun k hk => ⟨hread (regAt_key hk), hread (regAt_nonce hk), hread (regAt_din hk), hread (regAt_dout hk),
        hread (regAt_tagin hk), hread (regAt_tagout hk)⟩,
      fun off _ hoff => hread (regAt_reserved (by omega))⟩
  · have hdraw : s.isDraw off = true := isDraw_iff.2 ⟨by simp [hp], hid, hstatus⟩
    rw [State.hostRead, if_pos hdraw]
  · rw [State.afterRead]
    simp only [isDraw_iff]

/-- Settles O42: a write to a register of data words, and the read of the same word. -/
theorem writtenWordReadsBack : Obligations.WrittenWordReadsBack := by
  unfold Obligations.WrittenWordReadsBack
  intro s v k hp hk
  refine ⟨?_, ?_, ?_, ?_⟩ <;> rw [State.hostWrite_of_idle hp]
  · rw [regAt_nonce hk, State.hostRead_of_idle (by exact hp), regAt_nonce hk]
    exact Data.word_setWord _ hk v
  · rw [regAt_din hk, State.hostRead_of_idle (by exact hp), regAt_din hk]
    exact Data.word_setWord _ hk v
  · rw [regAt_tagin hk, State.hostRead_of_idle (by exact hp), regAt_tagin hk]
    exact Data.word_setWord _ hk v
  · rw [regAt_key hk, State.hostRead_of_idle (by exact hp), regAt_key hk]
    rfl

/-! ### `STATUS` as a number -/

/-- R44: the value of `STATUS` from the codes of its fields. -/
theorem toNat_statusWord (s : State) : (statusWord s).toNat = s.busy.toNat + 4 * s.err.toNat + 8 * s.bwe.toNat +
    16 * s.auth.toNat + 32 * s.var.code.toNat + 256 * s.phase.code.toNat + 4096 * s.tlen.code.toNat +
    65536 * s.errcode.code.toNat + 16777216 * s.lasterr.code.toNat := by
  simp only [statusWord, toNat_append_eq, BitVec.toNat_ofBool, BitVec.toNat_ofNat]
  omega

/-- Settles O43: the codes of the fields are the numbers written. -/
theorem statusLayout : Obligations.StatusLayout := by
  unfold Obligations.StatusLayout
  intro number s
  have herr (e : ErrCode) : e.code.toNat = number e := by cases e <;> rfl
  have hbusy : s.busy.toNat = if s.pending = none then 0 else 1 := by
    rw [State.busy]
    cases s.pending <;> rfl
  rw [toNat_statusWord, herr, herr, hbusy]
  cases s.var <;> cases s.phase <;> cases s.tlen <;> rfl

/-! ### What accesses alone tell the host -/

section
variable (s : State) (S : Lanes) (key : Data)

/-- `s` with other secrets. -/
def State.withSecrets (s : State) (S : Lanes) (key : Data) : State := { s with S := S, key := key }

/-- R81: no register reads as a secret, and whether a read takes a draw depends on none. -/
theorem hostRead_withSecrets (off : Nat) : (s.withSecrets S key).hostRead off = s.hostRead off := by
  have hreg (r : Reg) : (s.withSecrets S key).readReg r = s.readReg r := by cases r <;> rfl
  rw [State.hostRead, State.hostRead, hreg]
  rfl

theorem afterRead_withSecrets (off : Nat) : (s.withSecrets S key).afterRead off = (s.afterRead off).withSecrets S key := by
  rw [State.afterRead, hostRead_withSecrets]
  rfl

/-- R77: a write changes the same in both, but for the word of `KEY` it may write. -/
theorem hostWrite_withSecrets (off : Nat) (v : Word32) :
    ∃ key', (s.withSecrets S key).hostWrite off v = (s.hostWrite off v).withSecrets S key' := by
  cases hp : s.pending with
  | some w =>
    rw [State.hostWrite_of_pending hp, State.hostWrite_of_pending (s := s.withSecrets S key) hp]
    exact ⟨key, rfl⟩
  | none =>
    rw [State.hostWrite_of_idle hp, State.hostWrite_of_idle (s := s.withSecrets S key) hp]
    cases regAt off with
    | key k => exact ⟨key.setWord k v, rfl⟩
    | _ => exact ⟨key, rfl⟩

end

/-- R81: an access steps alike from states that differ in their secrets. -/
theorem step_withSecrets {s t : State} (hacc : ∀ e ∈ s.inputs, e ≠ .core ∧ e ≠ .reset) (hne : s.inputs ≠ [])
    (h : step s = .next t) (S : Lanes) (key : Data) :
    ∃ key', step (s.withSecrets S key) = .next (t.withSecrets S key') ∧ s.inputs.tail = t.inputs := by
  obtain ⟨hin, -⟩ | ⟨rest, hin, -⟩ | ⟨rest, off, size, hin, hadm, rfl⟩ | ⟨rest, off, size, v, hin, hadm, rfl⟩ |
    ⟨rest, hin, -⟩ := step_cases h
  · exact absurd hin hne
  · exact absurd rfl (hacc .core (by simp [hin])).1
  · refine ⟨key, ?_, by rw [hin]; rfl⟩
    rw [step_of_inputs_cons (s := s.withSecrets S key) hin, ← afterRead_withSecrets]
    exact if_pos hadm
  · obtain ⟨key', hkey⟩ := hostWrite_withSecrets { s with inputs := rest } S key off v
    refine ⟨key', ?_, ?_⟩
    · rw [step_of_inputs_cons (s := s.withSecrets S key) hin, ← hkey]
      exact if_pos hadm
    · rw [hin]
      exact (hostWrite_keeps (P := fun t => rest = t.inputs) rfl (fun r => by cases r <;> rfl) off)
  · exact absurd rfl (hacc .reset (by simp [hin])).2

/-- Settles O44, by induction on the number of accesses. That the run takes no draw is not needed: the free value of a draw is the
same in both runs, since its number is. -/
theorem secretsHiddenFromHost : Obligations.SecretsHiddenFromHost := by
  unfold Obligations.SecretsHiddenFromHost
  intro n s t s' hst hacc hlen hrun hdraws
  obtain ⟨S, key, rfl⟩ : ∃ S key, t = s.withSecrets S key := ⟨t.S, t.key, hst⟩
  clear hst hdraws
  induction n generalizing s key with
  | zero =>
    cases hrun
    exact ⟨_, rfl, rfl, rfl⟩
  | succ n ih =>
    rw [runSteps] at hrun
    cases hs : step s with
    | next u =>
      rw [hs] at hrun
      obtain ⟨key', hstep, htail⟩ := step_withSecrets hacc (List.ne_nil_of_length_pos (by omega)) hs S key
      rw [runSteps, hstep]
      refine ih u (fun e he => hacc e (List.mem_of_mem_tail (htail ▸ he))) ?_ hrun key'
      rw [← htail, List.length_tail]
      omega
    | fault f => simp [hs] at hrun
    | refused r => simp [hs] at hrun

end Sys2Proof.Machine
end

section
/-! The round unit, the update, the length block and the keystreams as statements (spec/40_aes_round.md, spec/41_state_update.md,
R191, R231). -/

namespace Sys2Proof

/-! ### The round -/

theorem get_subBytes (b : Block) {j : Nat} (h : j < 16) : (subBytes b).get j = sbox (b.get j) := Block.get_ofFn _ h

theorem get_shiftRows (b : Block) {j : Nat} (h : j < 16) :
    (shiftRows b).get j = b.get (j % 4 + 4 * ((j / 4 + j % 4) % 4)) := Block.get_ofFn _ h

/-- R147: row `r` of column `c`. -/
theorem get_mixColumns (b : Block) {c r : Nat} (hc : c < 4) (hr : r < 4) : (mixColumns b).get (4 * c + r) =
    mixColumnByte (b.get (4 * c)) (b.get (4 * c + 1)) (b.get (4 * c + 2)) (b.get (4 * c + 3)) r := by
  have hcol : (4 * c + r) / 4 = c := by omega
  have hrow : (4 * c + r) % 4 = r := by omega
  rw [mixColumns, Block.get_ofFn _ (by omega), hcol, hrow]

/-- R145, R146: byte `j` of the shifted rows of the substituted block. -/
def shiftedSub (b : Block) (j : Nat) : Byte := sbox (b.get (j % 4 + 4 * ((j / 4 + j % 4) % 4)))

theorem get_shiftRows_subBytes (b : Block) {j : Nat} (h : j < 16) : (shiftRows (subBytes b)).get j = shiftedSub b j := by
  rw [get_shiftRows _ h, get_subBytes _ (by omega), shiftedSub]

theorem get_aesRound (b k : Block) {c r : Nat} (hc : c < 4) (hr : r < 4) : (aesRound b k).get (4 * c + r) =
    mixColumnByte (shiftedSub b (4 * c)) (shiftedSub b (4 * c + 1)) (shiftedSub b (4 * c + 2)) (shiftedSub b (4 * c + 3)) r ^^^
      k.get (4 * c + r) := by
  rw [aesRound, addRoundKey, Block.get_xor, get_mixColumns _ hc hr, get_shiftRows_subBytes _ (by omega),
    get_shiftRows_subBytes _ (by omega), get_shiftRows_subBytes _ (by omega), get_shiftRows_subBytes _ (by omega)]

/-- Settles O47: the four bytes of a column, row by row of the mixing. -/
theorem roundClosedForm : Obligations.RoundClosedForm := by
  unfold Obligations.RoundClosedForm
  intro b rk c hc
  exact ⟨get_aesRound b rk hc (r := 0) (by omega), get_aesRound b rk hc (r := 1) (by omega),
    get_aesRound b rk hc (r := 2) (by omega), get_aesRound b rk hc (r := 3) (by omega)⟩

/-- Settles O48: the substitution works byte by byte, so the order of the two steps does not matter. -/
theorem subBytesShiftRowsCommute : Obligations.SubBytesShiftRowsCommute := by
  unfold Obligations.SubBytesShiftRowsCommute
  have hcomm (b : Block) : subBytes (shiftRows b) = shiftRows (subBytes b) := Block.ext_get fun j hj => by
    rw [get_subBytes _ hj, get_shiftRows _ hj, get_shiftRows_subBytes _ hj, shiftedSub]
  intro b rk
  refine ⟨hcomm b, ?_⟩
  rw [hcomm, aesRound, addRoundKey]

/-- Settles O49: the key enters by the last step alone; blocks of equal bytes stay so. -/
theorem roundLinearInKey : Obligations.RoundLinearInKey := by
  unfold Obligations.RoundLinearInKey
  have hvalue (a : Byte) {j : Nat} (hj : j < 16) : (aesRound (Block.ofFn fun _ => a) Block.zero).get j = sbox a := by
    rw [aesRound_const, Block.xor_zero, Block.get_ofFn _ hj]
  refine ⟨fun b k => ?_, fun j hj => ?_, fun j hj => ?_⟩
  · rw [aesRound, aesRound, addRoundKey, addRoundKey, Block.xor_zero]
  · exact (hvalue 0 hj).trans (by decide)
  · exact (hvalue 0xFF hj).trans (by decide)

/-! ### The field GF(2^8) -/

/-- A map of bytes that respects the addition of the field. -/
def IsAdditive (f : Byte → Byte) : Prop := ∀ a b, f (a ^^^ b) = f a ^^^ f b

/-- A byte is the sum of its bits. -/
theorem eq_foldl_bits (a : Byte) :
    a = (List.range 8).foldl (fun acc k => acc ^^^ (if a.getLsbD k then 1#8 <<< k else 0)) 0 := by
  revert a
  decide +kernel

theorem IsAdditive.map_zero {f : Byte → Byte} (hf : IsAdditive f) : f 0 = 0 := by
  have h := hf 0 0
  rwa [BitVec.xor_self, BitVec.xor_self] at h

/-- Additive maps that agree on the eight powers of `x` are equal. -/
theorem IsAdditive.eq_of_basis {f g : Byte → Byte} (hf : IsAdditive f) (hg : IsAdditive g)
    (h : ∀ k, k < 8 → f (1#8 <<< k) = g (1#8 <<< k)) (a : Byte) : f a = g a := by
  have hbit {k : Nat} (hk : k < 8) : f (if a.getLsbD k then 1#8 <<< k else 0) = g (if a.getLsbD k then 1#8 <<< k else 0) := by
    split
    · exact h k hk
    · rw [hf.map_zero, hg.map_zero]
  have hsum (l : List Nat) (hl : ∀ k ∈ l, k < 8) (c : Byte) (hc : f c = g c) :
      f (l.foldl (fun acc k => acc ^^^ (if a.getLsbD k then 1#8 <<< k else 0)) c) =
        g (l.foldl (fun acc k => acc ^^^ (if a.getLsbD k then 1#8 <<< k else 0)) c) := by
    induction l generalizing c with
    | nil => exact hc
    | cons k l ih =>
      rw [List.forall_mem_cons] at hl
      exact ih hl.2 _ (by rw [hf, hg, hc, hbit hl.1])
  rw [eq_foldl_bits a]
  exact hsum _ (fun k hk => List.mem_range.1 hk) 0 (by rw [hf.map_zero, hg.map_zero])

/-- R142: multiplication by `x` is additive. -/
theorem xtime_isAdditive : IsAdditive xtime := fun a b => by
  have hreduce (p q : Bool) :
      (if p ^^ q then 0x1B#8 else 0x00) = (if p then 0x1B#8 else 0x00) ^^^ (if q then 0x1B#8 else 0x00) := by
    cases p <;> cases q <;> rfl
  rw [xtime, xtime, xtime, BitVec.shiftLeft_xor_distrib, BitVec.getLsbD_xor]
  refine (congrArg _ (hreduce _ _)).trans ?_
  ac_rfl

theorem iterate_xtime_isAdditive (k : Nat) : IsAdditive (Nat.iterate xtime k) := by
  induction k with
  | zero => exact fun _ _ => rfl
  | succ k ih => exact fun a b => by rw [Nat.iterate, Nat.iterate, Nat.iterate, xtime_isAdditive, ih]

theorem foldl_xor_xor (f g : Nat → Byte) (l : List Nat) (c d : Byte) :
    l.foldl (fun acc k => acc ^^^ (f k ^^^ g k)) (c ^^^ d) =
      l.foldl (fun acc k => acc ^^^ f k) c ^^^ l.foldl (fun acc k => acc ^^^ g k) d := by
  induction l generalizing c d with
  | nil => rfl
  | cons k l ih =>
    have hswap : c ^^^ d ^^^ (f k ^^^ g k) = c ^^^ f k ^^^ (d ^^^ g k) := by ac_rfl
    rw [List.foldl_cons, hswap, ih, List.foldl_cons, List.foldl_cons]

/-- A product is additive in a factor in which each of its summands is. -/
theorem gfMul_eq_xor {a b a' b' a'' b'' : Byte}
    (h : ∀ k, (if b.getLsbD k then Nat.iterate xtime k a else 0) =
      (if b'.getLsbD k then Nat.iterate xtime k a' else 0) ^^^ (if b''.getLsbD k then Nat.iterate xtime k a'' else 0)) :
    gfMul a b = gfMul a' b' ^^^ gfMul a'' b'' := by
  simp only [gfMul, h]
  exact foldl_xor_xor _ _ _ 0 0

theorem gfMul_left_isAdditive (b : Byte) : IsAdditive (gfMul · b) := fun a a' => gfMul_eq_xor fun k => by
  split
  · exact iterate_xtime_isAdditive k a a'
  · rfl

theorem gfMul_right_isAdditive (a : Byte) : IsAdditive (gfMul a) := fun b b' => gfMul_eq_xor fun k => by
  rw [BitVec.getLsbD_xor]
  cases b.getLsbD k <;> cases b'.getLsbD k <;> simp

theorem IsAdditive.comp {f g : Byte → Byte} (hf : IsAdditive f) (hg : IsAdditive g) : IsAdditive fun a => f (g a) :=
  fun a b => (congrArg f (hg a b)).trans (hf _ _)

/-- The product is associative: it is additive in each factor, so the powers of `x` decide. -/
theorem gfMul_assoc (a b c : Byte) : gfMul (gfMul a b) c = gfMul a (gfMul b c) := by
  have hbasis : ∀ i, i < 8 → ∀ j, j < 8 → ∀ k, k < 8 →
      gfMul (gfMul (1#8 <<< i) (1#8 <<< j)) (1#8 <<< k) = gfMul (1#8 <<< i) (gfMul (1#8 <<< j) (1#8 <<< k)) := by
    decide +kernel
  refine IsAdditive.eq_of_basis ((gfMul_left_isAdditive c).comp (gfMul_left_isAdditive b))
    (gfMul_left_isAdditive (gfMul b c)) (fun i hi => ?_) a
  refine IsAdditive.eq_of_basis ((gfMul_left_isAdditive c).comp (gfMul_right_isAdditive _))
    ((gfMul_right_isAdditive _).comp (gfMul_left_isAdditive c)) (fun j hj => ?_) b
  exact IsAdditive.eq_of_basis (gfMul_right_isAdditive _)
    ((gfMul_right_isAdditive _).comp (gfMul_right_isAdditive _)) (fun k hk => hbasis i hi j hj k hk) c

theorem gfMul_one_left (b : Byte) : gfMul 1 b = b :=
  (gfMul_right_isAdditive 1).eq_of_basis (g := id) (fun _ _ => rfl) (by decide) b

theorem gfMul_one_right (a : Byte) : gfMul a 1 = a :=
  (gfMul_left_isAdditive 1).eq_of_basis (g := id) (fun _ _ => rfl) (by decide) a

theorem gfMul_zero_left (b : Byte) : gfMul 0 b = 0 := (gfMul_left_isAdditive b).map_zero

/-! ### The S-box -/

/-- The inverse of `sboxAffine`. -/
def sboxAffineInv (s : Byte) : Byte := s.rotateLeft 1 ^^^ s.rotateLeft 3 ^^^ s.rotateLeft 6 ^^^ 0x05

/-- The inverse of a byte, read off the table of the S-box. -/
def tableInverse (a : Byte) : Byte := sboxAffineInv (sbox a)

theorem sboxAffine_tableInverse (a : Byte) : sboxAffine (tableInverse a) = sbox a := by
  have haffine : ∀ s : Byte, sboxAffine (sboxAffineInv s) = s := by decide +kernel
  exact haffine (sbox a)

/-- R143, checked over the 256 entries of the table. -/
theorem gfMul_tableInverse {a : Byte} (h : a ≠ 0) : gfMul a (tableInverse a) = 1 ∧ gfMul (tableInverse a) a = 1 := by
  revert a
  decide +kernel

theorem eq_tableInverse_of_gfMul_eq_one {a i : Byte} (h : gfMul a i = 1) : i = tableInverse a := by
  have hne : a ≠ 0 := by
    rintro rfl
    rw [gfMul_zero_left] at h
    exact absurd h (by decide)
  calc i = gfMul (gfMul (tableInverse a) a) i := by rw [(gfMul_tableInverse hne).2, gfMul_one_left]
    _ = tableInverse a := by rw [gfMul_assoc, h, gfMul_one_right]

/-- Settles O50: the table read backwards through the affine map gives an inverse of every byte, and inverses are unique. -/
theorem sboxIsAffineOfInverse : Obligations.SboxIsAffineOfInverse := by
  unfold Obligations.SboxIsAffineOfInverse
  refine ⟨?_, fun a ha => ⟨_, (gfMul_tableInverse ha).1⟩⟩
  rintro a i (h | ⟨rfl, rfl⟩)
  · rw [eq_tableInverse_of_gfMul_eq_one h, sboxAffine_tableInverse]
  · decide

/-! ### The update, the length block and the keystreams -/

/-- Settles O51: the words of the update, each with its predecessor and its own injection. -/
theorem updatesWrittenOut : Obligations.UpdatesWrittenOut := by
  unfold Obligations.UpdatesWrittenOut
  have hplain (b k : Block) : aesRound b (k.xor Block.zero) = aesRound b k := by rw [Block.xor_zero]
  refine ⟨fun S m0 m1 => ?_, fun S m => ?_⟩
  · rw [← hplain S.s0, ← hplain S.s1, ← hplain S.s2, ← hplain S.s4, ← hplain S.s5, ← hplain S.s6]
    rfl
  · rw [← hplain S.s0, ← hplain S.s1, ← hplain S.s2, ← hplain S.s3, ← hplain S.s4]
    rfl

/-- The digits of a number to the base 256 sum up to it. -/
theorem sum_digits (x n : Nat) : ((List.range n).map fun i => x / 256 ^ i % 256 * 256 ^ i).sum = x % 256 ^ n := by
  induction n with
  | zero => simp [Nat.mod_one]
  | succ n ih => rw [List.range_succ, List.map_append, List.sum_append, ih, Nat.mod_pow_succ, Nat.mul_comm (256 ^ n)]; simp

theorem toNat_le64Byte (x : BitVec 64) (i : Nat) : (le64Byte x i).toNat = x.toNat / 256 ^ i % 256 := by
  rw [le64Byte, BitVec.extractLsb'_toNat, Nat.shiftRight_eq_div_pow, Nat.pow_mul]

/-- R13: the value of eight bytes in little-endian order. -/
theorem sum_le64Byte (x : BitVec 64) : ((List.range 8).map fun i => (le64Byte x i).toNat * 256 ^ i).sum = x.toNat := by
  simp only [toNat_le64Byte, sum_digits]
  exact Nat.mod_eq_of_lt x.isLt

theorem get_lenBlock (a m : BitVec 64) {i : Nat} (h : i < 8) :
    (lenBlock a m).get i = le64Byte (8 * a) i ∧ (lenBlock a m).get (i + 8) = le64Byte (8 * m) i := by
  rw [lenBlock, Block.get_ofFn _ (by omega), Block.get_ofFn _ (by omega), if_pos h, if_neg (by omega), Nat.add_sub_cancel]
  exact ⟨rfl, rfl⟩

/-- Settles O52: each half is the little-endian form of eight times its count. -/
theorem lengthBlockValue : Obligations.LengthBlockValue := by
  unfold Obligations.LengthBlockValue
  intro a m
  have hbits (x : BitVec 64) : 8 * x.toNat % 2 ^ 64 = (8 * x).toNat := by rw [BitVec.toNat_mul]; rfl
  rw [hbits, hbits, ← sum_le64Byte, ← sum_le64Byte]
  constructor <;> refine congrArg List.sum (List.map_congr_left fun i hi => ?_)
  · rw [(get_lenBlock a m (List.mem_range.1 hi)).1]
  · rw [(get_lenBlock a m (List.mem_range.1 hi)).2]

/-- Settles O53: XOR and AND work byte by byte. -/
theorem keystreamBytes : Obligations.KeystreamBytes := by
  unfold Obligations.KeystreamBytes
  intro S j hj
  refine ⟨?_, ?_, ?_⟩
  · rw [Data.get_lo _ hj]
    simp [z128]
  · rw [Data.get_hi]
    simp [z128]
  · simp [z256]

end Sys2Proof
end

section
/-! Two runs of a command that differ in `DIN`, the mirror of encryption and decryption, the loop `POLL`, and progress
(spec/10_state.md section 3, spec/42_aegis128l.md section 3, spec/30_encoding.md R112, spec/60_exceptions.md section 6). -/

namespace Sys2Proof

theorem xor_xor_cancel_byte (a b : Byte) : a ^^^ b ^^^ b = a := by rw [BitVec.xor_assoc, BitVec.xor_self, BitVec.xor_zero]

theorem padData_congr {x y : Nat → Byte} {n : Nat} (h : ∀ i, i < n → x i = y i) : padData x n = padData y n :=
  Data.ext_get fun i hi => by
    rw [get_padData_of_lt _ _ hi, get_padData_of_lt _ _ hi]
    split_ifs with hin
    · exact h i hin
    · rfl

theorem padBlock_congr {x y : Nat → Byte} {n : Nat} (h : ∀ i, i < n → x i = y i) : padBlock x n = padBlock y n :=
  Block.ext_get fun i hi => by
    rw [get_padBlock_of_lt _ _ hi, get_padBlock_of_lt _ _ hi]
    split_ifs with hin
    · exact h i hin
    · rfl

theorem Data.lo_eq {d e : Data} (h : ∀ i, i < 16 → d.get i = e.get i) : d.lo = e.lo :=
  Block.ext_get fun i hi => by rw [← Data.get_lo d hi, ← Data.get_lo e hi, h i hi]

end Sys2Proof

namespace Sys2Proof.Machine

/-! ### Another `DIN` -/

/-- `s` with another `DIN`. -/
def State.withDin (s : State) (d : Data) : State := { s with din := d }

theorem stateCheck_withDin (i : Instr) (s : State) (d : Data) : stateCheck i (s.withDin d) = stateCheck i s := by
  cases i <;> rfl

theorem verdict_withDin (s : State) (d : Data) (x : Byte) : (s.withDin d).verdict x = (s.verdict x).withDin d := by
  unfold State.verdict
  split <;> rfl

theorem lo_withDin {s : State} {d : Data} (h : ∀ i, i < 16 → d.get i = s.din.get i) :
    (s.withDin d).din.lo = s.din.lo := Data.lo_eq h

/-- A command whose effect does not depend on `DIN` does not depend on it at all. -/
theorem exec_withDin {i : Instr} {s t : State} {d : Data} (heffect : effect i (s.withDin d) = (effect i s).withDin d)
    (h : exec i s = .next t) : exec i (s.withDin d) = .next (t.withDin d) := by
  rw [exec_eq_complete, stateCheck_withDin]
  obtain ⟨hc, rfl⟩ | ⟨hc, rfl⟩ := exec_cases h
  · rw [hc, complete_none, heffect]
    rfl
  · rw [complete_error hc]
    rfl

section
variable {s : State} {d : Data} {n : BitVec 5} (h : ∀ i, i < n.toNat → d.get i = s.din.get i)
include h

theorem partial128L_withDin : (s.withDin d).partial128L n = s.partial128L n := padData_congr h

theorem partial256_withDin : (s.withDin d).partial256 n = s.partial256 n := padBlock_congr h

theorem recovered128L_withDin : (s.withDin d).recovered128L n = s.recovered128L n := by
  rw [State.recovered128L, partial128L_withDin h]
  rfl

theorem recovered256_withDin : (s.withDin d).recovered256 n = s.recovered256 n := by
  rw [State.recovered256, partial256_withDin h]
  rfl

end

/-- Settles O55: a partial command reads `DIN` through its zero-padded block, a full one of AEGIS-256 through `DIN[0:16]`, and the
others not at all. -/
theorem dinBeyondBlockIgnored : Obligations.DinBeyondBlockIgnored := by
  unfold Obligations.DinBeyondBlockIgnored
  rintro i k hi s t s' ⟨ht, hdin⟩ hexec
  obtain ⟨d, rfl⟩ : ∃ d, t = s.withDin d := ⟨t.din, ht⟩
  replace hdin : ∀ i, i < k → d.get i = s.din.get i := hdin
  refine exec_withDin ?_ hexec
  obtain ⟨n, rfl | rfl | rfl | rfl | rfl | rfl, rfl⟩ | ⟨rfl | rfl | rfl, rfl⟩ |
    ⟨⟨c, rfl | rfl⟩ | rfl | rfl | rfl, rfl⟩ := hi
  · rw [effect, partial128L_withDin hdin]; rfl
  · rw [effect, partial128L_withDin hdin]; rfl
  · rw [effect, recovered128L_withDin hdin]; rfl
  · rw [effect, partial256_withDin hdin]; rfl
  · rw [effect, partial256_withDin hdin]; rfl
  · rw [effect, recovered256_withDin hdin]; rfl
  · rw [effect, lo_withDin hdin]; rfl
  · rw [effect, lo_withDin hdin]; rfl
  · rw [effect, lo_withDin hdin]; rfl
  · rfl
  · rfl
  · rfl
  · rfl
  · exact verdict_withDin s d _

/-! ### Decryption mirrors encryption -/

section
variable {s : State} {c : Data}

/-- R205: the full ciphertext block gives the plaintext back. -/
theorem xor_keystream_of_output128L (h : ∀ j, j < 32 → c.get j = (s.din.xor (z128 s.S)).get j) :
    c.xor (z128 s.S) = s.din := by
  rw [Data.ext_get h, Data.xor_xor_cancel]

/-- R206. -/
theorem recovered128L_of_output {n : BitVec 5}
    (h : ∀ j, j < n.toNat → c.get j = (padData ((s.partial128L n).xor (z128 s.S)).get n.toNat).get j) :
    (s.withDin c).recovered128L n = s.partial128L n := by
  refine Data.ext_get fun j hj => ?_
  rw [State.recovered128L, get_output128L (s.withDin c) n hj, get_partial128L s n hj]
  split_ifs with hjn
  · have hc : (s.withDin c).din.get j = s.din.get j ^^^ (z128 s.S).get j :=
      (h j hjn).trans ((get_output128L s n hj).trans (if_pos hjn))
    exact (congrArg (· ^^^ (z128 s.S).get j) hc).trans (xor_xor_cancel_byte _ _)
  · rfl

/-- R245. -/
theorem xor_keystream_of_output256 (h : ∀ j, j < 16 → c.get j = (Data.mk (s.din.lo.xor (z256 s.S)) Block.zero).get j) :
    c.lo.xor (z256 s.S) = s.din.lo := by
  rw [Data.lo_eq h, Block.xor_xor_cancel]

/-- R246. -/
theorem recovered256_of_output {n : BitVec 5} (hn : n.toNat ≤ 15)
    (h : ∀ j, j < n.toNat → c.get j = (padData ((s.partial256 n).xor (z256 s.S)).get n.toNat).get j) :
    (s.withDin c).recovered256 n = s.partial256 n := by
  refine Block.ext_get fun j hj => ?_
  rw [get_recovered256 (s.withDin c) n hj, get_partial256 s n hj]
  split_ifs with hjn
  · have hc : (s.withDin c).din.get j = s.din.get j ^^^ (z256 s.S).get j :=
      (h j hjn).trans ((get_output256 s n hn (by omega)).trans (if_pos hjn))
    exact (congrArg (· ^^^ (z256 s.S).get j) hc).trans (xor_xor_cancel_byte _ _)
  · rfl

end

/-- R37: a word put out in an AEGIS-256 session, padded with zeros. -/
theorem get_word_zero (b : Block) (j : Nat) : (Data.mk b Block.zero).get j = if j < 16 then b.get j else 0 := by
  rw [Data.get, Block.get_zero]

/-- Message commands of one count that feed the same state words back, the second putting out `P`. -/
theorem exec_mirrors {enc dec : Instr} {s : State} {c out P : Data} {T : Lanes} {k : Nat} {next : Phase}
    (hcheck : stateCheck dec (s.withDin c) = .none) (henc : effect enc s = s.message T out k next)
    (hdec : effect dec (s.withDin c) = (s.withDin c).message T P k next)
    (hP : ∀ j, j < 32 → P.get j = if j < k then s.din.get j else 0) :
    ∃ u, exec dec (s.withDin c) = .next u ∧ u.lasterr = .none ∧ u.S = (effect enc s).succeed.S ∧
      u.phase = (effect enc s).succeed.phase ∧ u.msgcnt = (effect enc s).succeed.msgcnt ∧
      ∀ j, j < 32 → u.dout.get j = if j < k then s.din.get j else 0 := by
  refine ⟨_, exec_of_check_none hcheck, rfl, ?_⟩
  rw [henc, hdec]
  exact ⟨rfl, rfl, rfl, hP⟩

/-- Settles O54: in each of the four pairs the decrypting side recovers the plaintext block, and from there on does what the
encrypting side did. -/
theorem decryptMirrorsEncrypt : Obligations.DecryptMirrorsEncrypt := by
  unfold Obligations.DecryptMirrorsEncrypt
  intro enc dec k hpair s t c hexec hlast hc
  have hcheck : stateCheck enc s = .none := (lasterr_of_exec hexec).symm.trans hlast
  rw [exec_of_check_none hcheck] at hexec
  cases hexec
  obtain ⟨rfl, rfl, rfl⟩ | ⟨n, rfl, rfl, rfl⟩ | ⟨rfl, rfl, rfl⟩ | ⟨n, hn, rfl, rfl, rfl⟩ := hpair
  · have hdec : effect .dec128L (s.withDin c) =
        (s.withDin c).message (update128L s.S s.din.lo s.din.hi) s.din 32 .msg := by
      rw [← xor_keystream_of_output128L hc]
      rfl
    exact exec_mirrors hcheck rfl hdec fun j hj => (if_pos hj).symm
  · have hdec : effect (.decp128L n) (s.withDin c) = (s.withDin c).message
        (update128L s.S (s.partial128L n).lo (s.partial128L n).hi) (s.partial128L n) n.toNat .msgPart := by
      rw [← recovered128L_of_output hc]
      rfl
    exact exec_mirrors hcheck rfl hdec fun j => get_partial128L s n
  · have hdec : effect .dec256 (s.withDin c) =
        (s.withDin c).message (update256 s.S s.din.lo) ⟨s.din.lo, Block.zero⟩ 16 .msg := by
      rw [← xor_keystream_of_output256 hc]
      rfl
    refine exec_mirrors hcheck rfl hdec fun j _ => (get_word_zero _ j).trans (ite_congr rfl (fun hj => ?_) fun _ => rfl)
    exact (Data.get_lo _ hj).symm
  · have hdec : effect (.decp256 n) (s.withDin c) = (s.withDin c).message
        (update256 s.S (s.partial256 n)) ⟨s.partial256 n, Block.zero⟩ n.toNat .msgPart := by
      rw [← recovered256_of_output hn hc]
      rfl
    refine exec_mirrors hcheck rfl hdec fun j _ => (get_word_zero _ j).trans ?_
    rw [State.partial256, get_padBlock]
    split_ifs <;> grind

/-! ### `POLL` -/

/-- R112: the whole record of a `POLL` of a pending command: the old `STATUS` for each read before the core's turn, then the
new one. -/
theorem poll_of_pending_eq {s t : State} {w : Word32} (hp : s.pending = some w) (h : execute w s = .next t) (n : Nat) :
    poll n s = (statusWord t.clearPending, t.withLatch none
      (statusWord t.clearPending :: (List.replicate n (statusWord s) ++ s.returned))) := by
  induction n generalizing s t with
  | zero =>
    rw [poll, coreTurn_of_pending hp h, rd_status]
    rfl
  | succ n ih =>
    rw [poll_succ, if_neg (by simp [hp]),
      ih (s := s.withLatch s.pending (statusWord s :: s.returned)) hp (execute_withLatch h _ _), List.replicate_succ',
      List.append_assoc]
    rfl

/-- Settles O60: the loop's end, its first read when nothing is pending, and its record when a command is. -/
theorem pollWaitsForCompletion : Obligations.PollWaitsForCompletion := by
  unfold Obligations.PollWaitsForCompletion
  refine fun n s => ⟨poll_ends n s, fun hp => ?_, fun w t hp h => poll_of_pending_eq hp h n⟩
  rw [poll_of_idle hp, State.withLatch, ← hp]

/-! ### Progress -/

theorem execute_inputs {w : Word32} {s t : State} (h : execute w s = .next t) : t.inputs = s.inputs := by
  cases hdec : decode w with
  | error e =>
    rw [execute_of_decode_error hdec] at h
    cases h
    rfl
  | ok i =>
    rw [execute_of_decode_ok hdec] at h
    obtain ⟨-, rfl⟩ | ⟨-, rfl⟩ := exec_cases h
    · obtain ⟨-, hinputs, -⟩ := effect_frame_own i s
      exact hinputs
    · rfl

/-- R340, R366: the core's turn ends with nothing pending. -/
theorem coreStep_completes (s : State) : ∃ t, coreStep s = .next t ∧ t.pending = none ∧ t.inputs = s.inputs := by
  cases hp : s.pending with
  | none => exact ⟨s, by rw [coreStep, hp], hp, rfl⟩
  | some w =>
    obtain ⟨t, ht⟩ := execute_completes w s
    exact ⟨t.clearPending, coreStep_of_pending hp ht, rfl, execute_inputs (t := t) ht⟩

/-- A step with admitted accesses consumes one event. -/
theorem step_consumes {s : State} {e : Input} {rest : List Input} (hin : s.inputs = e :: rest) (h : AllAdmitted s.inputs) :
    ∃ t, step s = .next t ∧ t.inputs = rest := by
  have he := h e (by simp [hin])
  rw [step_of_inputs_cons hin]
  cases e with
  | read off size => exact ⟨_, if_pos he, rfl⟩
  | write off size v =>
    exact ⟨_, if_pos he, hostWrite_keeps (P := fun t => t.inputs = rest) rfl (fun r => by cases r <;> rfl) off⟩
  | core =>
    obtain ⟨t, ht, -, hinputs⟩ := coreStep_completes { s with inputs := rest }
    exact ⟨t, ht, hinputs⟩
  | reset => exact ⟨_, rfl, rfl⟩

theorem runSteps_succ_of_step {s t : State} (h : step s = .next t) (n : Nat) : runSteps (n + 1) s = runSteps n t := by
  rw [runSteps, h]

/-- Settles O59, by induction on the events still to come; the step after the last one is the core's. -/
theorem everyRunCompletes : Obligations.EveryRunCompletes := by
  unfold Obligations.EveryRunCompletes
  intro s h
  generalize hl : s.inputs = l
  induction l generalizing s with
  | nil =>
    obtain ⟨t, ht, hpending, hinputs⟩ := coreStep_completes s
    exact ⟨t, runSteps_succ_of_step ((step_of_inputs_nil hl).trans ht) 0, hpending, hinputs.trans hl⟩
  | cons e rest ih =>
    obtain ⟨u, hu, hrest⟩ := step_consumes hl h
    rw [List.length_cons, runSteps_succ_of_step hu]
    refine ih u (fun e' he' => h e' ?_) hrest
    rw [hl]
    exact List.mem_cons_of_mem e (hrest ▸ he')

end Sys2Proof.Machine
end

section
/-! Byte strings cut into blocks: the AEAD functions as folds over the blocks of a string, and their round trip
(spec/49_host_procedures.md R291–R293). -/

namespace Sys2Proof

/-! ### Folds over blocks -/

section
variable {α β : Type} {r : Nat}

/-- The fold of `F` over the blocks of `r` bytes of `M`, the last of which may be shorter. -/
def foldBlocks (r : Nat) (F : α → List Byte → α) (a : α) (M : List Byte) : α :=
  (List.range ((M.length + r - 1) / r)).foldl (fun acc j => F acc ((M.drop (j * r)).take r)) a

theorem blocks_of_pos (hr : 0 < r) {n : Nat} (hn : 0 < n) : (n + r - 1) / r = (n - r + r - 1) / r + 1 := by
  rcases Nat.lt_or_ge n r with h | h
  · have hone : (n + r - 1) / r = 1 := by
      rw [show n + r - 1 = n - 1 + r by omega, Nat.add_div_right _ hr, Nat.div_eq_of_lt (by omega)]
    rw [hone, Nat.div_eq_of_lt (by omega)]
  · rw [show n + r - 1 = n - r + r - 1 + r by omega, Nat.add_div_right _ hr]

theorem foldBlocks_nil (hr : 0 < r) (F : α → List Byte → α) (a : α) : foldBlocks r F a [] = a := by
  rw [foldBlocks, List.length_nil, Nat.div_eq_of_lt (by omega)]
  rfl

/-- The first block, then the others. -/
theorem foldBlocks_of_ne_nil (hr : 0 < r) (F : α → List Byte → α) (a : α) {M : List Byte} (hM : M ≠ []) :
    foldBlocks r F a M = foldBlocks r F (F a (M.take r)) (M.drop r) := by
  rw [foldBlocks, blocks_of_pos hr (List.length_pos_iff.2 hM), List.range_succ_eq_map, List.foldl_cons, List.foldl_map,
    foldBlocks, List.length_drop]
  simp only [Nat.zero_mul, List.drop_zero, List.drop_drop, Nat.succ_mul, Nat.add_comm]

/-- What relates two folds to the bytes still to come, from the first block to the last. -/
theorem foldBlocks_rel (hr : 0 < r) {F : α → List Byte → α} {G : β → List Byte → β} {R : List Byte → α → β → Prop}
    (hstep : ∀ M a b, M ≠ [] → R M a b → R (M.drop r) (F a (M.take r)) (G b (M.take r))) {M : List Byte} {a : α} {b : β}
    (h : R M a b) : R [] (foldBlocks r F a M) (foldBlocks r G b M) := by
  induction hlen : M.length using Nat.strong_induction_on generalizing M a b with
  | _ n ih =>
    by_cases hM : M = []
    · subst hM
      rwa [foldBlocks_nil hr, foldBlocks_nil hr]
    · rw [foldBlocks_of_ne_nil hr F a hM, foldBlocks_of_ne_nil hr G b hM]
      have hpos := List.length_pos_iff.2 hM
      exact ih (M.drop r).length (by rw [List.length_drop]; omega) (hstep M a b hM h) rfl

theorem slice_block (M : List Byte) (j : Nat) : slice M (j * r) ((j + 1) * r) = (M.drop (j * r)).take r := by
  rw [slice, Nat.succ_mul, Nat.add_sub_cancel_left]

theorem length_slice_block {M : List Byte} {j : Nat} (hj : j < M.length / r) :
    (slice M (j * r) ((j + 1) * r)).length = r := by
  have hle : (j + 1) * r ≤ M.length := (Nat.mul_le_mul_right r hj).trans (Nat.div_mul_le_self _ _)
  rw [Nat.succ_mul] at hle
  rw [slice_block, List.length_take, List.length_drop]
  omega

theorem slice_rest_eq (M : List Byte) : slice M (M.length - M.length % r) M.length = M.drop (M.length / r * r) := by
  have hfull : M.length - M.length % r = M.length / r * r := by
    rw [Nat.mul_comm, Nat.sub_eq_of_eq_add (Nat.div_add_mod _ _).symm]
  rw [slice, hfull, ← List.length_drop, List.take_length]

theorem length_slice_rest (M : List Byte) :
    (slice M (M.length - M.length % r) M.length).length = M.length % r := by
  have hle := Nat.mod_le M.length r
  rw [slice, List.length_take, List.length_drop]
  omega

/-- The full blocks in a loop, then the rest if there is one. -/
theorem foldl_full_rest_eq_foldBlocks (hr : 0 < r) {F full part : α → List Byte → α} (M : List Byte)
    (hfull : ∀ a x, x.length = r → full a x = F a x) (hpart : ∀ a x, 0 < x.length → x.length < r → part a x = F a x)
    (a : α) :
    (if M.length % r > 0 then
      part ((List.range (M.length / r)).foldl (fun acc j => full acc (slice M (j * r) ((j + 1) * r))) a)
        (slice M (M.length - M.length % r) M.length)
    else (List.range (M.length / r)).foldl (fun acc j => full acc (slice M (j * r) ((j + 1) * r))) a) =
      foldBlocks r F a M := by
  have hloop : (List.range (M.length / r)).foldl (fun acc j => full acc (slice M (j * r) ((j + 1) * r))) a =
      (List.range (M.length / r)).foldl (fun acc j => F acc ((M.drop (j * r)).take r)) a := by
    refine List.foldl_ext _ _ _ fun acc j hj => ?_
    rw [hfull _ _ (length_slice_block (List.mem_range.1 hj)), slice_block]
  have hdiv := Nat.div_add_mod M.length r
  have hlt := Nat.mod_lt M.length hr
  rw [hloop, foldBlocks]
  split_ifs with hrest
  · have hcount : (M.length + r - 1) / r = M.length / r + 1 := by
      rw [show M.length + r - 1 = M.length % r - 1 + r * (M.length / r + 1) by rw [Nat.mul_succ]; omega,
        Nat.add_mul_div_left _ _ hr, Nat.div_eq_of_lt (by omega), Nat.zero_add]
    have hlen : (slice M (M.length - M.length % r) M.length).length = M.length % r := length_slice_rest M
    rw [hcount, List.range_succ, List.foldl_append, List.foldl_cons, List.foldl_nil, hpart _ _ (by omega) (by omega)]
    rw [slice_rest_eq] at hlen ⊢
    rw [List.take_of_length_le (by omega)]
  · have hcount : (M.length + r - 1) / r = M.length / r := by
      rw [show M.length + r - 1 = r - 1 + r * (M.length / r) by omega, Nat.add_mul_div_left _ _ hr,
        Nat.div_eq_of_lt (by omega), Nat.zero_add]
    rw [hcount]

end

/-! ### Padding and XOR of byte strings -/

theorem getD_append_zeros (x : List Byte) (k j : Nat) : (x ++ List.replicate k 0).getD j 0 = x.getD j 0 := by
  rcases Nat.lt_or_ge j x.length with h | h
  · exact List.getD_append _ _ _ _ h
  · rw [List.getD_append_right _ _ _ _ h, List.getD_eq_default _ _ h, List.getD_eq_getElem?_getD,
      List.getElem?_replicate]
    split <;> rfl

theorem padBytes_self (x : List Byte) (L : Nat) : padBytes x x.length L = x ++ List.replicate (L - x.length) 0 := by
  rw [padBytes, List.take_length]

theorem length_xorBytes {a b : List Byte} (h : a.length ≤ b.length) : (xorBytes a b).length = a.length := by
  rw [xorBytes, List.length_zipWith, Nat.min_eq_left h]

theorem xorBytes_xorBytes {a b : List Byte} (h : a.length ≤ b.length) : xorBytes (xorBytes a b) b = a := by
  induction a generalizing b with
  | nil => rfl
  | cons x a ih =>
    cases b with
    | nil => simp at h
    | cons y b =>
      have htail := ih (b := b) (by simpa using h)
      simp only [xorBytes, List.zipWith_cons_cons] at htail ⊢
      rw [htail, xor_xor_cancel_byte]

theorem xorBytes_take_length (x z : List Byte) : xorBytes x (z.take x.length) = xorBytes x z := by
  rw [xorBytes, xorBytes, List.zipWith_eq_zipWith_take_min, List.zipWith_eq_zipWith_take_min (l₂ := z), List.take_take]
  simp

/-- The zeros that pad a string do not reach its first bytes. -/
theorem take_xorBytes_padBytes (x z : List Byte) (L : Nat) :
    (xorBytes (padBytes x x.length L) z).take x.length = xorBytes x z := by
  rw [padBytes_self, xorBytes, List.take_zipWith, List.take_left]
  exact xorBytes_take_length x z

theorem getD_xorBytes {a b : List Byte} (h : a.length ≤ b.length) {j : Nat} (hj : j < a.length) :
    (xorBytes a b).getD j 0 = a.getD j 0 ^^^ b.getD j 0 := by
  have hb : j < b.length := hj.trans_le h
  have hab : j < (xorBytes a b).length := (length_xorBytes h).symm ▸ hj
  rw [List.getD_eq_getElem _ _ hab, List.getD_eq_getElem _ _ hj, List.getD_eq_getElem _ _ hb]
  exact List.getElem_zipWith

/-! ### The AEAD functions, block by block -/

@[simp] theorem length_zV (v : Variant) (S : Lanes) : (zV v S).length = rate v := by cases v <;> simp [zV, rate]

/-- A block enters the state by its bytes; bytes beyond its length count as zeros. -/
theorem updV_congr {v : Variant} {B B' : List Byte} (h : ∀ j, B.getD j 0 = B'.getD j 0) (S : Lanes) :
    updV v S B = updV v S B' := by
  have hslice {i k : Nat} (hik : k = i + 16) : blockOf (slice B i k) = blockOf (slice B' i k) := by
    subst hik
    refine Block.ext_get fun j hj => ?_
    rw [blockOf, blockOf, Block.get_ofFn _ hj, Block.get_ofFn _ hj]
    simpa [slice, List.getD_eq_getElem?_getD, List.getElem?_take, hj] using h (i + j)
  cases v with
  | v128L => rw [updV, updV, hslice rfl, hslice rfl]
  | v256 => simp only [updV, blockOf, h]

theorem updV_padBytes (v : Variant) (S : Lanes) (x : List Byte) (L : Nat) :
    updV v S (padBytes x x.length L) = updV v S x :=
  updV_congr (fun j => by rw [padBytes_self, getD_append_zeros]) S

/-- One block of a message: the output is its XOR with the keystream, and `fed` of it is fed back. -/
def messageBlock (v : Variant) (fed : List Byte → List Byte → List Byte) (acc : List Byte × Lanes) (x : List Byte) :
    List Byte × Lanes :=
  (acc.1 ++ xorBytes x (zV v acc.2), updV v acc.2 (fed x (zV v acc.2)))

/-- R291: the plaintext is fed back, which is the block itself. -/
def fedEncrypt (x _z : List Byte) : List Byte := x

/-- R292: the plaintext is fed back, which the keystream recovers. -/
def fedDecrypt (x z : List Byte) : List Byte := xorBytes x z

theorem slice_blockLength (v : Variant) (M : List Byte) (j : Nat) :
    slice M (j * rate v) (j * rate v + blockLength v M.length j) = (M.drop (j * rate v)).take (rate v) := by
  rw [slice, Nat.add_sub_cancel_left, blockLength, ← List.length_drop, ← List.take_eq_take_min]

theorem length_block (v : Variant) (M : List Byte) (j : Nat) :
    blockLength v M.length j = ((M.drop (j * rate v)).take (rate v)).length := by
  rw [List.length_take, List.length_drop, blockLength]

theorem encryptBlock_eq (v : Variant) (M : List Byte) (acc : List Byte × Lanes) (j : Nat) :
    encryptBlock v M acc j = messageBlock v fedEncrypt acc ((M.drop (j * rate v)).take (rate v)) := by
  rw [encryptBlock, slice_blockLength, length_block, take_xorBytes_padBytes, updV_padBytes]
  rfl

theorem decryptBlock_eq (v : Variant) (C : List Byte) (acc : List Byte × Lanes) (j : Nat) :
    decryptBlock v C acc j = messageBlock v fedDecrypt acc ((C.drop (j * rate v)).take (rate v)) := by
  rw [decryptBlock, slice_blockLength, length_block]
  generalize hx : (C.drop (j * rate v)).take (rate v) = x
  have hlen : x.length ≤ (zV v acc.2).length := by
    rw [← hx, length_zV]
    exact List.length_take_le _ _
  have hP : padBytes (xorBytes (padBytes x x.length (rate v)) (zV v acc.2)) x.length (rate v) =
      padBytes (xorBytes x (zV v acc.2)) (xorBytes x (zV v acc.2)).length (rate v) := by
    rw [padBytes, take_xorBytes_padBytes, padBytes_self, length_xorBytes hlen]
  have htake : (padBytes (xorBytes x (zV v acc.2)) (xorBytes x (zV v acc.2)).length (rate v)).take x.length =
      xorBytes x (zV v acc.2) := by
    rw [padBytes_self, ← length_xorBytes hlen, List.take_left]
  simp only [hP, htake, updV_padBytes]
  rfl

theorem encryptBlocks_eq (v : Variant) (S : Lanes) (M : List Byte) :
    encryptBlocks v S M = foldBlocks (rate v) (messageBlock v fedEncrypt) ([], S) M :=
  List.foldl_ext _ _ _ fun acc j _ => encryptBlock_eq v M acc j

theorem decryptBlocks_eq (v : Variant) (S : Lanes) (C : List Byte) :
    decryptBlocks v S C = foldBlocks (rate v) (messageBlock v fedDecrypt) ([], S) C :=
  List.foldl_ext _ _ _ fun acc j _ => decryptBlock_eq v C acc j

theorem absorbAll_eq (v : Variant) (S : Lanes) (A : List Byte) : absorbAll v S A = foldBlocks (rate v) (updV v) S A := by
  rw [absorbAll, ← foldl_full_rest_eq_foldBlocks (rate_pos v) (full := updV v) (part := updV v) A (fun _ _ _ => rfl)
    (fun _ _ _ _ => rfl)]
  have hrest := updV_padBytes v
    ((List.range (A.length / rate v)).foldl (fun T j => updV v T (slice A (j * rate v) ((j + 1) * rate v))) S)
    (slice A (A.length - A.length % rate v) A.length) (rate v)
  rw [length_slice_rest] at hrest
  simp only [hrest]

/-- R291, R292: the output of a message is as long as the message. -/
theorem length_messageBlocks (v : Variant) (fed : List Byte → List Byte → List Byte) (S : Lanes) (M : List Byte) :
    (foldBlocks (rate v) (messageBlock v fed) ([], S) M).1.length = M.length := by
  have h := foldBlocks_rel (rate_pos v) (F := messageBlock v fed) (G := fun u _ => u) (b := ()) (M := M) (a := ([], S))
    (R := fun rest acc _ => acc.1.length + rest.length = M.length) (fun rest acc _ _ hacc => ?_) (Nat.zero_add _)
  · exact h
  · have hle : (rest.take (rate v)).length ≤ (zV v acc.2).length := by
      rw [length_zV]
      exact List.length_take_le _ _
    rw [messageBlock, List.length_append, length_xorBytes hle, List.length_take, List.length_drop]
    omega

/-! ### The round trip -/

/-- A block, and what follows a full block, are recovered from their concatenation by their lengths. -/
theorem take_drop_append {r : Nat} {M y c : List Byte} (hy : y.length = (M.take r).length)
    (hc : c.length = (M.drop r).length) : (y ++ c).take r = y ∧ (y ++ c).drop r = c := by
  rw [List.length_take] at hy
  rw [List.length_drop] at hc
  rcases Nat.lt_or_ge M.length r with h | h
  · obtain rfl : c = [] := List.length_eq_zero_iff.1 (by omega)
    rw [List.append_nil, List.take_of_length_le (by omega), List.drop_of_length_le (by omega)]
    exact ⟨rfl, rfl⟩
  · obtain rfl : y.length = r := by omega
    exact ⟨List.take_left, List.drop_left⟩

/-- R293: the decryption of an encryption gives the message back and goes through the same states. -/
theorem decrypt_messageBlocks (v : Variant) (M out out' : List Byte) (S : Lanes) :
    ∃ C T, foldBlocks (rate v) (messageBlock v fedEncrypt) (out, S) M = (out ++ C, T) ∧ C.length = M.length ∧
      foldBlocks (rate v) (messageBlock v fedDecrypt) (out', S) C = (out' ++ M, T) := by
  have hr := rate_pos v
  induction hlen : M.length using Nat.strong_induction_on generalizing M out out' S with
  | _ n ih =>
    by_cases hM : M = []
    · subst hM
      refine ⟨[], S, ?_, hlen, ?_⟩ <;> rw [foldBlocks_nil hr, List.append_nil]
    · have hpos := List.length_pos_iff.2 hM
      have hle : (M.take (rate v)).length ≤ (zV v S).length := by
        rw [length_zV]
        exact List.length_take_le _ _
      obtain ⟨C, T, henc, hC, hdec⟩ := ih (M.drop (rate v)).length (by rw [List.length_drop]; omega) (M.drop (rate v))
        (out ++ xorBytes (M.take (rate v)) (zV v S)) (out' ++ M.take (rate v)) (updV v S (M.take (rate v))) rfl
      have hy := length_xorBytes hle
      obtain ⟨htake, hdrop⟩ := take_drop_append hy hC
      refine ⟨xorBytes (M.take (rate v)) (zV v S) ++ C, T, ?_, ?_, ?_⟩
      · rw [foldBlocks_of_ne_nil hr _ _ hM, messageBlock, fedEncrypt, henc, List.append_assoc]
      · rw [List.length_append, hy, hC, ← List.length_append, List.take_append_drop, hlen]
      · have hne : xorBytes (M.take (rate v)) (zV v S) ++ C ≠ [] := by
          refine List.ne_nil_of_length_pos ?_
          rw [List.length_append, hy, List.length_take]
          omega
        rw [foldBlocks_of_ne_nil hr _ _ hne, htake, hdrop, messageBlock, fedDecrypt]
        simp only [xorBytes_xorBytes hle]
        rw [hdec, List.append_assoc, List.take_append_drop]

theorem length_tagV (v : Variant) (S : Lanes) (t : TagSize) : (tagV v S t).length = tagBytes t := by
  cases v <;> cases t <;> simp [tagV, tag128L, tag256, tagBytes]

/-- Settles O56: the decryption recovers the message block by block and ends in the state of the encryption, whose tag is the one
received. -/
theorem aeadRoundTrip : Obligations.AeadRoundTrip := by
  unfold Obligations.AeadRoundTrip
  intro v K N A M t
  obtain ⟨C, T, henc, hC, hdec⟩ := decrypt_messageBlocks v M [] [] (absorbAll v (initV v K N) A)
  rw [← encryptBlocks_eq] at henc
  rw [← decryptBlocks_eq] at hdec
  have hX : aeadEncrypt v K N A M t = C ++ tagV v (finV v T A.length M.length) t := by rw [aeadEncrypt, henc]; rfl
  have hlen : (C ++ tagV v (finV v T A.length M.length) t).length - tagBytes t = C.length := by
    rw [List.length_append, length_tagV, Nat.add_sub_cancel]
  have hcipher (tag : List Byte) : slice (C ++ tag) 0 C.length = C := by
    rw [slice, List.drop_zero, Nat.sub_zero, List.take_left]
  have htag (tag : List Byte) : slice (C ++ tag) C.length (C ++ tag).length = tag := by
    rw [slice, List.drop_left, List.length_append, Nat.add_sub_cancel_left, List.take_length]
  rw [hX, aeadDecrypt, hlen, hcipher, htag]
  simp only [hdec, hC, if_true]
  rfl

end Sys2Proof
end

section
/-! Byte strings in the data registers: what the host's lines load and read (spec/30_encoding.md R112, spec/20_memory.md R72). -/

namespace Sys2Proof

/-! ### The bytes of a data register -/

/-- The first bytes of the register are `x`. -/
def Data.StartsWith (d : Data) (x : List Byte) : Prop := ∀ j, j < x.length → d.get j = x.getD j 0

theorem get_dataOf (x : List Byte) {j : Nat} (h : j < 32) : (dataOf x).get j = x.getD j 0 := Data.get_ofFn _ h

theorem Data.eq_dataOf {d : Data} {x : List Byte} (h : d.StartsWith x) (hzero : ∀ j, j < 32 → x.length ≤ j → d.get j = 0) :
    d = dataOf x := by
  refine Data.ext_get fun j hj => ?_
  rw [get_dataOf x hj]
  rcases Nat.lt_or_ge j x.length with hjx | hjx
  · exact h j hjx
  · rw [hzero j hj hjx, List.getD_eq_default _ _ hjx]

theorem Data.StartsWith.take_toBytes {d : Data} {x : List Byte} (h : d.StartsWith x) (hx : x.length ≤ 32) :
    d.toBytes.take x.length = x := by
  refine List.ext_getElem (by simpa using hx) fun j hj hjx => ?_
  have hbyte := h j hjx
  rw [List.getD_eq_getElem _ _ hjx] at hbyte
  simp [Data.toBytes, hbyte]

/-! ### Words and bytes -/

theorem wordByte_word (d : Data) (k : Nat) {i : Nat} (h : i < 4) : wordByte (d.word k) i = d.get (4 * k + i) := by
  have h0 := (d.get (4 * k)).isLt
  have h1 := (d.get (4 * k + 1)).isLt
  have h2 := (d.get (4 * k + 2)).isLt
  have h3 := (d.get (4 * k + 3)).isLt
  apply BitVec.eq_of_toNat_eq
  rw [wordByte_eq_ofNat, BitVec.toNat_ofNat, Data.toNat_word]
  interval_cases i
  · rw [Nat.pow_zero, Nat.div_one, Nat.add_zero (4 * k)]
    omega
  all_goals omega

theorem map_range_four_mul (f : Nat → Byte) (k : Nat) :
    ((List.range k).flatMap fun j => (List.range 4).map fun i => f (4 * j + i)) = (List.range (4 * k)).map f := by
  induction k with
  | zero => rfl
  | succ k ih =>
    rw [List.range_succ (n := k), List.flatMap_append, ih, Nat.mul_succ, List.range_add, List.map_append, List.map_map]
    simp

/-- R112 `RDOUT`, `RDTAG`: the bytes of `k` words of a register. -/
theorem flatMap_wordByte (d : Data) {k : Nat} (hk : k ≤ 8) :
    ((List.range k).flatMap fun j => (List.range 4).map (wordByte (d.word j))) = d.toBytes.take (4 * k) := by
  have hword (j : Nat) : (List.range 4).map (wordByte (d.word j)) = (List.range 4).map fun i => d.get (4 * j + i) :=
    List.map_congr_left fun i hi => wordByte_word d j (List.mem_range.1 hi)
  simp only [hword]
  rw [map_range_four_mul d.get, Data.toBytes, ← List.map_take, List.take_range, Nat.min_eq_left (by omega)]

/-- The register after its first `n` words have been written from `x`. -/
def Data.setWords (d : Data) (x : List Byte) (n : Nat) : Data :=
  (List.range n).foldl (fun e k => e.setWord k (Machine.wordOfBytes x k)) d

theorem Data.setWords_succ (d : Data) (x : List Byte) (n : Nat) :
    d.setWords x (n + 1) = (d.setWords x n).setWord n (Machine.wordOfBytes x n) := by
  rw [Data.setWords, List.range_succ, List.foldl_append]
  rfl

theorem wordOfBytes_eq (x : List Byte) {k : Nat} (hk : k < 8) : Machine.wordOfBytes x k = (dataOf x).word k := by
  rw [Machine.wordOfBytes, Data.word, get_dataOf x (by omega), get_dataOf x (by omega), get_dataOf x (by omega),
    get_dataOf x (by omega)]

theorem Data.get_setWords (d : Data) (x : List Byte) {n j : Nat} (hn : n ≤ 8) (hj : j < 4 * n) :
    (d.setWords x n).get j = x.getD j 0 := by
  induction n with
  | zero => omega
  | succ n ih =>
    rw [Data.setWords_succ, Data.get_setWord _ _ _ (by omega)]
    split_ifs with hword
    · rw [wordOfBytes_eq x hn, wordByte_word _ _ (by omega), get_dataOf x (by omega), ← hword, Nat.div_add_mod]
    · exact ih (by omega) (by omega)

theorem Data.startsWith_setWords (d : Data) {x : List Byte} (hx : x.length ≤ 32) :
    (d.setWords x ((x.length + 3) / 4)).StartsWith x := fun _ _ => d.get_setWords x (by omega) (by omega)

end Sys2Proof

namespace Sys2Proof.Machine

/-! ### Loading a register -/

/-- R112: a line of writes to a data register, which `set` puts into the state, leaves the string in it. -/
theorem loadBytes_startsWith {base : Nat} {set : Data → State}
    (h : ∀ d k v, k < 8 → (set d).hostWrite (base + 4 * k) v = set (d.setWord k v)) {x : List Byte} (hx : x.length ≤ 32)
    (d : Data) : ∃ e : Data, e.StartsWith x ∧ loadBytes base x (set d) = set e := by
  have hwords {n : Nat} (hn : n ≤ 8) :
      (List.range n).foldl (fun t k => t.hostWrite (base + 4 * k) (wordOfBytes x k)) (set d) = set (d.setWords x n) := by
    induction n with
    | zero => rfl
    | succ n ih =>
      rw [List.range_succ, List.foldl_append, ih (by omega), Data.setWords_succ]
      exact h _ _ _ hn
  exact ⟨_, d.startsWith_setWords hx, hwords (by omega)⟩

section
variable {s : State} (hp : s.pending = none) {x : List Byte} (hx : x.length ≤ 32)
include hp hx

theorem loadBytes_key : ∃ d : Data, d.StartsWith x ∧ loadBytes 0x100 x s = { s with key := d } :=
  loadBytes_startsWith (set := fun d => { s with key := d })
    (fun d k v hk => by rw [State.hostWrite_of_idle (by exact hp), regAt_key hk]; rfl) hx s.key

theorem loadBytes_nonce : ∃ d : Data, d.StartsWith x ∧ loadBytes 0x120 x s = { s with nonce := d } :=
  loadBytes_startsWith (set := fun d => { s with nonce := d })
    (fun d k v hk => by rw [State.hostWrite_of_idle (by exact hp), regAt_nonce hk]; rfl) hx s.nonce

theorem loadBytes_din : ∃ d : Data, d.StartsWith x ∧ loadBytes 0x140 x s = s.withDin d :=
  loadBytes_startsWith (set := s.withDin)
    (fun d k v hk => by rw [State.hostWrite_of_idle (by exact hp), regAt_din hk]; rfl) hx s.din

theorem loadBytes_tagin : ∃ d : Data, d.StartsWith x ∧ loadBytes 0x180 x s = { s with tagin := d } :=
  loadBytes_startsWith (set := fun d => { s with tagin := d })
    (fun d k v hk => by rw [State.hostWrite_of_idle (by exact hp), regAt_tagin hk]; rfl) hx s.tagin

end

/-! ### The machine between two lines -/

/-- Between two lines of a host program that began in `s₀`: nothing is pending, no error is set, and of the model's own fields only
the record of reads has grown. -/
structure State.ReadyAfter (s₀ s : State) : Prop where
  pending : s.pending = none
  err : s.err = false
  inputs : s.inputs = s₀.inputs
  draws : s.draws = s₀.draws
  returned : ∃ reads, s.returned = reads ++ s₀.returned

section
variable {s₀ s : State} (h : s₀.ReadyAfter s)
include h

theorem State.ReadyAfter.withLatch (reads : List Word32) : s₀.ReadyAfter (s.withLatch none (reads ++ s.returned)) := by
  obtain ⟨reads', hreturned⟩ := h.returned
  exact ⟨rfl, h.err, h.inputs, h.draws, reads ++ reads', by
    rw [State.withLatch_returned, hreturned, List.append_assoc]⟩

/-- R112: a command line whose command's checks pass. -/
theorem State.ReadyAfter.issue_eq {i : Instr} (wait : State → Nat) (wf : i.wellFormed = true)
    (hc : stateCheck i s = .none) :
    ∃ reads, issue wait i s = (effect i s).succeed.withLatch none (reads ++ s₀.returned) := by
  have hexec : execute (encode i) s = .next (effect i s).succeed := by
    rw [execute_of_decode_ok (decode_encode wf), exec_of_check_none hc]
  obtain ⟨reads, hissue⟩ := issue_of_idle wait h.pending hexec
  obtain ⟨reads', hreturned⟩ := h.returned
  exact ⟨reads ++ reads', by rw [hissue, hreturned, List.append_assoc]⟩

theorem State.ReadyAfter.issue {i : Instr} (wait : State → Nat) (wf : i.wellFormed = true) (hne : i ≠ .zeroize)
    (hc : stateCheck i s = .none) :
    s₀.ReadyAfter (issue wait i s) ∧ (Machine.issue wait i s).session = (effect i s).session := by
  obtain ⟨reads, hissue⟩ := h.issue_eq wait wf hc
  obtain ⟨-, hinputs, -, hdraws⟩ := effect_frame_own i s
  obtain ⟨herr, -⟩ := effect_frame_error hne s
  rw [hissue]
  exact ⟨⟨rfl, herr.trans h.err, hinputs.trans h.inputs, hdraws.trans h.draws, reads, rfl⟩, rfl⟩

/-- R295, R296: the line that ends both procedures. -/
theorem State.ReadyAfter.issue_zeroize (wait : State → Nat) : ∃ reads, Machine.issue wait .zeroize s =
    { State.reset with inputs := s₀.inputs, returned := reads ++ s₀.returned, draws := s₀.draws } := by
  obtain ⟨reads, hissue⟩ := h.issue_eq (i := .zeroize) wait rfl rfl
  refine ⟨reads, hissue.trans ?_⟩
  rw [← h.inputs, ← h.draws]
  rfl

theorem State.ReadyAfter.readBytes {base : Nat} {d : Data} (hreg : ∀ k, k < 8 → s.readReg (regAt (base + 4 * k)) = d.word k)
    {k : Nat} (hk : k ≤ 8) :
    ∃ t, readBytes base k s = (d.toBytes.take (4 * k), t) ∧ s₀.ReadyAfter t ∧ t.session = s.session := by
  obtain ⟨reads, hread⟩ := readBytes_of_idle h.pending base k
  have hbytes : ((List.range k).flatMap fun j => (List.range 4).map (wordByte (s.readReg (regAt (base + 4 * j))))) =
      d.toBytes.take (4 * k) := by
    rw [← flatMap_wordByte d hk]
    refine List.flatMap_congr fun j hj => ?_
    rw [hreg j ((List.mem_range.1 hj).trans_le hk)]
  exact ⟨_, hread.trans (by rw [hbytes]), h.withLatch reads, rfl⟩

theorem State.ReadyAfter.rd_status : ∃ t, rd 0x008 s = (statusWord s, t) ∧ s₀.ReadyAfter t :=
  ⟨_, Machine.rd_status s, by
    rw [h.pending]
    exact h.withLatch [statusWord s]⟩

end

theorem statusWord_bit2 (s : State) : (statusWord s).getLsbD 2 = s.err := by
  simp only [statusWord, BitVec.getLsbD_append]
  simp

theorem statusWord_bit4 (s : State) : (statusWord s).getLsbD 4 = s.auth := by
  simp only [statusWord, BitVec.getLsbD_append]
  simp

end Sys2Proof.Machine
end

section
/-! The host procedures on the machine compute the AEAD functions (spec/49_host_procedures.md R295, R296). -/

namespace Sys2Proof

theorem updV_v128L (S : Lanes) {d : Data} {x : List Byte} (h : d = dataOf x) : updV .v128L S x = update128L S d.lo d.hi := by
  have hhi : blockOf (slice x 16 32) = (dataOf x).hi := Block.ext_get fun j hj => by
    rw [← Data.get_hi, get_dataOf x (by omega), blockOf, Block.get_ofFn _ hj]
    simp [slice, List.getD_eq_getElem?_getD, hj, Nat.add_comm]
  have hlo : blockOf (slice x 0 16) = (dataOf x).lo := Block.ext_get fun j hj => by
    rw [← Data.get_lo _ hj, get_dataOf x (by omega), blockOf, Block.get_ofFn _ hj]
    simp [slice, List.getD_eq_getElem?_getD, hj]
  rw [updV, hlo, hhi, h]

theorem updV_v256 (S : Lanes) {b : Block} {x : List Byte} (h : b = blockOf x) : updV .v256 S x = update256 S b := by
  rw [updV, h]

/-- A word of 16 bytes is the word of a string of at most as many, if it is zero beyond them. -/
theorem eq_blockOf {b : Block} {x : List Byte} (h : ∀ j, j < 16 → b.get j = if j < x.length then x.getD j 0 else 0) :
    b = blockOf x := by
  refine Block.ext_get fun j hj => ?_
  rw [h j hj, blockOf, Block.get_ofFn _ hj]
  split_ifs with hjx
  · rfl
  · exact (List.getD_eq_default _ _ (Nat.not_lt.1 hjx)).symm

theorem eq_dataOf {d : Data} {x : List Byte} (h : ∀ j, j < 32 → d.get j = if j < x.length then x.getD j 0 else 0)
    (hx : x.length ≤ 32) : d = dataOf x :=
  Data.eq_dataOf (fun j hj => (h j (by omega)).trans (if_pos hj)) fun j hj hjx => (h j hj).trans (if_neg (by omega))

theorem getD_zV_v128L (S : Lanes) (j : Nat) : (zV .v128L S).getD j 0 = (z128 S).get j := Data.getD_toBytes _ j

theorem getD_zV_v256 (S : Lanes) (j : Nat) : (zV .v256 S).getD j 0 = (z256 S).get j := Block.getD_toBytes _ j

/-- A count as the field of a command. -/
theorem toNat_count {n : Nat} (h : n < 32) : (BitVec.ofNat 5 n).toNat = n := by
  rw [BitVec.toNat_ofNat]
  exact Nat.mod_eq_of_lt h

theorem toNat_count256 {n : Nat} (h : n < rate .v256) : (BitVec.ofNat 5 n).toNat = n := toNat_count (h.trans (by decide))

theorem countOk128L_ofNat {n : Nat} (h : 0 < n) (hlt : n < rate .v128L) : countOk128L (BitVec.ofNat 5 n) = true :=
  decide_eq_true (by rw [toNat_count hlt]; exact ⟨h, Nat.le_pred_of_lt hlt⟩)

theorem countOk256_ofNat {n : Nat} (h : 0 < n) (hlt : n < rate .v256) : countOk256 (BitVec.ofNat 5 n) = true :=
  decide_eq_true (by rw [toNat_count256 hlt]; exact ⟨h, Nat.le_pred_of_lt hlt⟩)

end Sys2Proof

namespace Sys2Proof.Machine

/-! ### The block commands on byte strings -/

/-- The command for a block of `n` bytes: `full` for a whole block, else `part n`. -/
def blockCommand (v : Variant) (full : Instr) (part : Nat → Instr) (n : Nat) : Instr := if n = rate v then full else part n

/-- The phase a block of `n` bytes leaves. -/
def blockPhase (v : Variant) (full part : Phase) (n : Nat) : Phase := if n = rate v then full else part

theorem blockCommand_full (v : Variant) (full : Instr) (part : Nat → Instr) :
    blockCommand v full part (rate v) = full := if_pos rfl

theorem blockPhase_full (v : Variant) (full part : Phase) : blockPhase v full part (rate v) = full := if_pos rfl

theorem blockCommand_part {v : Variant} {n : Nat} (h : n < rate v) (full : Instr) (part : Nat → Instr) :
    blockCommand v full part n = part n := if_neg h.ne

theorem blockPhase_part {v : Variant} {n : Nat} (h : n < rate v) (full part : Phase) :
    blockPhase v full part n = part := if_neg h.ne

/-- What a command for the block `x` in `DIN` is to do: it is well formed, its checks are those of a block of `x`'s length, and its
effect has the property `E`. -/
structure BlockRuns (i : Instr) (s : State) (check : ErrCode) (E : State → Prop) : Prop where
  wf : i.wellFormed = true
  ne : i ≠ .zeroize
  check : stateCheck i s = check
  effect : E (effect i s)

section
variable {v : Variant} {s : State} {x : List Byte} (hdin : s.din.StartsWith x) (hpos : 0 < x.length)
  (hle : x.length ≤ rate v)
include hdin

theorem din_eq_dataOf (hlen : x.length = 32) : s.din = dataOf x :=
  eq_dataOf (fun j hj => (hdin j (by omega)).trans (if_pos (by omega)).symm) hlen.le

theorem partial128L_eq_dataOf (hlt : x.length < 32) : s.partial128L (BitVec.ofNat 5 x.length) = dataOf x := by
  refine eq_dataOf (fun j hj => ?_) hlt.le
  rw [get_partial128L s _ hj, toNat_count hlt]
  split_ifs with hjx
  · exact hdin j hjx
  · rfl

theorem din_lo_eq_blockOf (hlen : x.length = 16) : s.din.lo = blockOf x :=
  eq_blockOf fun j hj => by rw [← Data.get_lo _ hj, hdin j (by omega), if_pos (by omega)]

theorem partial256_eq_blockOf (hlt : x.length < 16) : s.partial256 (BitVec.ofNat 5 x.length) = blockOf x := by
  refine eq_blockOf fun j hj => ?_
  rw [get_partial256 s _ hj, toNat_count (by omega)]
  split_ifs with hjx
  · exact hdin j hjx
  · rfl

include hpos hle

/-- R295: the line for a block of associated data. -/
theorem absorb_runs : BlockRuns (blockCommand v (absOf v) (abspOf v) x.length) s
    (blockCheck v absorbPhases s.adcnt x.length s)
    fun t => t = s.absorb (updV v s.S x) x.length (blockPhase v .ad .adPart x.length) := by
  obtain hlt | heq := hle.lt_or_eq
  · rw [blockCommand_part hlt, blockPhase_part hlt]
    cases v with
    | v128L =>
      have hn := toNat_count hlt
      rw [updV_v128L s.S (partial128L_eq_dataOf hdin hlt)]
      exact ⟨countOk128L_ofNat hpos hlt, nofun, by rw [abspOf, stateCheck, hn], by rw [abspOf, effect, hn]⟩
    | v256 =>
      have hn := toNat_count256 hlt
      rw [updV_v256 s.S (partial256_eq_blockOf hdin hlt)]
      exact ⟨countOk256_ofNat hpos hlt, nofun, by rw [abspOf, stateCheck, hn], by rw [abspOf, effect, hn]⟩
  · rw [heq, blockCommand_full, blockPhase_full]
    cases v with
    | v128L =>
      rw [updV_v128L s.S (din_eq_dataOf hdin heq)]
      exact ⟨rfl, nofun, rfl, rfl⟩
    | v256 =>
      rw [updV_v256 s.S (din_lo_eq_blockOf hdin heq)]
      exact ⟨rfl, nofun, rfl, rfl⟩

end

/-! ### The message commands on byte strings -/

section
variable {s : State} {x : List Byte} (hdin : s.din.StartsWith x)
include hdin

/-- What a message command puts out: the block's XOR with the keystream, and zeros beyond it. -/
theorem eq_dataOf_xorBytes {v : Variant} (hle : x.length ≤ rate v) {out : Data}
    (h : ∀ j, j < 32 → out.get j = if j < x.length then s.din.get j ^^^ (zV v s.S).getD j 0 else 0) :
    out = dataOf (xorBytes x (zV v s.S)) := by
  have hz : x.length ≤ (zV v s.S).length := by rwa [length_zV]
  refine eq_dataOf (fun j hj => ?_) ?_ <;> rw [length_xorBytes hz]
  · rw [h j hj]
    split_ifs with hjx
    · rw [hdin j hjx, getD_xorBytes hz hjx]
    · rfl
  · exact hle.trans (by cases v <;> decide)

theorem output128L_full (hlen : x.length = rate .v128L) :
    s.din.xor (z128 s.S) = dataOf (xorBytes x (zV .v128L s.S)) :=
  eq_dataOf_xorBytes hdin hlen.le fun j hj => by rw [Data.get_xor, if_pos (hlen ▸ hj), getD_zV_v128L]

theorem output128L_part (hlt : x.length < rate .v128L) :
    s.recovered128L (BitVec.ofNat 5 x.length) = dataOf (xorBytes x (zV .v128L s.S)) :=
  eq_dataOf_xorBytes hdin hlt.le fun j hj => by
    rw [State.recovered128L, get_output128L s _ hj, toNat_count hlt, getD_zV_v128L]

theorem output256_full (hlen : x.length = rate .v256) :
    Data.mk (s.din.lo.xor (z256 s.S)) Block.zero = dataOf (xorBytes x (zV .v256 s.S)) :=
  eq_dataOf_xorBytes hdin hlen.le fun j _ => by rw [get_word256, hlen, getD_zV_v256]; rfl

section
variable (hlt : x.length < rate .v256)
include hlt

theorem output256_part : padData ((s.partial256 (BitVec.ofNat 5 x.length)).xor (z256 s.S)).get x.length =
    dataOf (xorBytes x (zV .v256 s.S)) := by
  have hn := toNat_count256 hlt
  refine eq_dataOf_xorBytes hdin hlt.le fun j hj => ?_
  have hout := get_output256 s (BitVec.ofNat 5 x.length) (hn.trans_le (Nat.le_pred_of_lt hlt)) hj
  rwa [hn, ← getD_zV_v256] at hout

theorem recovered256_part : Data.mk (s.recovered256 (BitVec.ofNat 5 x.length)) Block.zero =
    dataOf (xorBytes x (zV .v256 s.S)) := by
  refine eq_dataOf_xorBytes hdin hlt.le fun j _ => ?_
  rw [get_word_zero]
  split_ifs with hj hjx hjx
  · rw [get_recovered256 s _ hj, toNat_count256 hlt, if_pos hjx, getD_zV_v256]
  · rw [get_recovered256 s _ hj, toNat_count256 hlt, if_neg hjx]
  · exact absurd (hjx.trans hlt) hj
  · rfl

end

end

/-- R295, R296: the commands `cmd n` compute the blocks of a message, of which they feed back `fed`. -/
def MessageRuns (v : Variant) (cmd : Nat → Instr) (fed : List Byte → List Byte → List Byte) : Prop :=
  ∀ (s : State) (x : List Byte), s.din.StartsWith x → 0 < x.length → x.length ≤ rate v →
    BlockRuns (cmd x.length) s (blockCheck v messagePhases s.msgcnt x.length s) fun t =>
      t = s.message (updV v s.S (fed x (zV v s.S))) (dataOf (xorBytes x (zV v s.S))) x.length
        (blockPhase v .msg .msgPart x.length)

theorem encrypt_runs (v : Variant) : MessageRuns v (blockCommand v (encOf v) (encpOf v)) fedEncrypt := by
  intro s x hdin hpos hle
  rw [fedEncrypt]
  obtain hlt | heq := hle.lt_or_eq
  · rw [blockCommand_part hlt, blockPhase_part hlt]
    cases v with
    | v128L =>
      have hn := toNat_count hlt
      rw [updV_v128L s.S (partial128L_eq_dataOf hdin hlt), ← output128L_part hdin hlt]
      exact ⟨countOk128L_ofNat hpos hlt, nofun, by rw [encpOf, stateCheck, hn], by
        rw [encpOf, effect, State.recovered128L, hn]⟩
    | v256 =>
      have hn := toNat_count256 hlt
      rw [updV_v256 s.S (partial256_eq_blockOf hdin hlt), ← output256_part hdin hlt]
      exact ⟨countOk256_ofNat hpos hlt, nofun, by rw [encpOf, stateCheck, hn], by rw [encpOf, effect, hn]⟩
  · rw [heq, blockCommand_full, blockPhase_full]
    cases v with
    | v128L =>
      rw [updV_v128L s.S (din_eq_dataOf hdin heq), ← output128L_full hdin heq]
      exact ⟨rfl, nofun, rfl, rfl⟩
    | v256 =>
      rw [updV_v256 s.S (din_lo_eq_blockOf hdin heq), ← output256_full hdin heq]
      exact ⟨rfl, nofun, rfl, rfl⟩

theorem decrypt_runs (v : Variant) : MessageRuns v (blockCommand v (decOf v) (decpOf v)) fedDecrypt := by
  intro s x hdin hpos hle
  rw [fedDecrypt]
  obtain hlt | heq := hle.lt_or_eq
  · rw [blockCommand_part hlt, blockPhase_part hlt]
    cases v with
    | v128L =>
      have hn := toNat_count hlt
      have hout := output128L_part hdin hlt
      rw [updV_v128L s.S hout, ← hout]
      exact ⟨countOk128L_ofNat hpos hlt, nofun, by rw [decpOf, stateCheck, hn], by rw [decpOf, effect, hn]⟩
    | v256 =>
      have hn := toNat_count256 hlt
      have hout := recovered256_part hdin hlt
      rw [updV_v256 s.S (congrArg Data.lo hout), ← hout]
      exact ⟨countOk256_ofNat hpos hlt, nofun, by rw [decpOf, stateCheck, hn], by rw [decpOf, effect, hn]⟩
  · rw [heq, blockCommand_full, blockPhase_full]
    cases v with
    | v128L =>
      have hout := output128L_full hdin heq
      rw [updV_v128L s.S hout, ← hout]
      exact ⟨rfl, nofun, rfl, rfl⟩
    | v256 =>
      have hout := output256_full hdin heq
      rw [updV_v256 s.S (congrArg Data.lo hout), ← hout]
      exact ⟨rfl, nofun, rfl, rfl⟩

/-! ### A session between two lines -/

/-- Between two lines of a session of variant `v` with state words `S`, after `a` bytes of associated data and `m` of the message. -/
structure State.InSession (s₀ : State) (v : Variant) (S : Lanes) (a m : Nat) (s : State) : Prop where
  ready : s₀.ReadyAfter s
  var : s.var = v
  lanes : s.S = S
  adcnt : s.adcnt.toNat = a
  msgcnt : s.msgcnt.toNat = m

theorem State.InSession.of_session {s₀ : State} {v : Variant} {S : Lanes} {a m : Nat} {s t : State} (ready : s₀.ReadyAfter t)
    (h : t.session = s.session) (var : s.var = v) (lanes : s.S = S) (adcnt : s.adcnt.toNat = a)
    (msgcnt : s.msgcnt.toNat = m) : InSession s₀ v S a m t :=
  ⟨ready, (congrArg State.var h).trans var, (congrArg State.S h).trans lanes,
    (congrArg (fun u : State => u.adcnt.toNat) h).trans adcnt, (congrArg (fun u : State => u.msgcnt.toNat) h).trans msgcnt⟩

theorem phase_of_session {s t : State} (h : s.session = t.session) : s.phase = t.phase :=
  show s.session.phase = t.session.phase from congrArg State.phase h

/-- R295: `LDKEY K; LDNONCE N; INIT.v`. -/
theorem openSession_inSession {s : State} (hp : s.pending = none) (herr : s.err = false) (wait : State → Nat) {v : Variant}
    {K N : List Byte} (hK : K.length = keySize v) (hN : N.length = nonceSize v) :
    s.InSession v (initV v K N) 0 0 (openSession wait v K N s) ∧ (openSession wait v K N s).phase = .ad := by
  have hsize : keySize v ≤ 32 ∧ nonceSize v ≤ 32 := by cases v <;> decide
  obtain ⟨k, hk, hkey⟩ := loadBytes_key hp (hK.trans_le hsize.1)
  obtain ⟨n, hn, hnonce⟩ := loadBytes_nonce (s := { s with key := k }) hp (hN.trans_le hsize.2)
  have hready : s.ReadyAfter { s with key := k, nonce := n } := ⟨hp, herr, rfl, rfl, [], rfl⟩
  have heffect : effect (initOf v) { s with key := k, nonce := n } =
      State.startSession v (initV v K N) { s with key := k, nonce := n } := by
    cases v with
    | v128L =>
      have hklo : k.lo = blockOf K := eq_blockOf fun j hj => by
        rw [← Data.get_lo _ hj, hk j (hK ▸ hj), if_pos (hK ▸ hj)]
      have hnlo : n.lo = blockOf N := eq_blockOf fun j hj => by
        rw [← Data.get_lo _ hj, hn j (hN ▸ hj), if_pos (hN ▸ hj)]
      rw [initV, ← hklo, ← hnlo]
      rfl
    | v256 =>
      have hkd : k = dataOf K := eq_dataOf (fun j hj => by rw [hk j (hK ▸ hj), if_pos (hK ▸ hj)]) hK.le
      have hnd : n = dataOf N := eq_dataOf (fun j hj => by rw [hn j (hN ▸ hj), if_pos (hN ▸ hj)]) hN.le
      rw [initV, ← hkd, ← hnd]
      rfl
  rw [openSession, hkey, hnonce]
  obtain ⟨ready, hsession⟩ := hready.issue (i := initOf v) wait (by cases v <;> rfl) (by cases v <;> exact nofun)
    (by cases v <;> rfl)
  rw [heffect] at hsession
  exact ⟨.of_session ready hsession rfl rfl rfl rfl, phase_of_session hsession⟩

/-! ### The associated data -/

/-- R295: `LDDIN x; ABS.v` or `ABSP.v`. -/
def absorbBlock (wait : State → Nat) (v : Variant) (s : State) (x : List Byte) : State :=
  issue wait (blockCommand v (absOf v) (abspOf v) x.length) (loadBytes 0x140 x s)

theorem absorbAd_eq (wait : State → Nat) (v : Variant) (A : List Byte) (s : State) :
    absorbAd wait v A s = foldBlocks (rate v) (absorbBlock wait v) s A := by
  have hrest := length_slice_rest (r := rate v) A
  rw [absorbAd, ← foldl_full_rest_eq_foldBlocks (rate_pos v)
    (full := fun t x => issue wait (absOf v) (loadBytes 0x140 x t))
    (part := fun t x => issue wait (abspOf v x.length) (loadBytes 0x140 x t)) A
    (fun t x hx => by rw [absorbBlock, hx, blockCommand_full]) fun t x _ hx => by rw [absorbBlock, blockCommand_part hx]]
  simp only [hrest]

section
variable {s₀ s : State} {v : Variant} {S : Lanes} {a m : Nat} {x : List Byte} (hpos : 0 < x.length)
  (hle : x.length ≤ rate v)
include hpos hle

theorem State.InSession.absorbBlock (h : s₀.InSession v S a m s) (hphase : s.phase = .ad) (hlimit : a + x.length < 2 ^ 61)
    (wait : State → Nat) : s₀.InSession v (updV v S x) (a + x.length) m (absorbBlock wait v s x) ∧
      (Machine.absorbBlock wait v s x).phase = blockPhase v .ad .adPart x.length := by
  obtain ⟨hready, rfl, rfl, rfl, rfl⟩ := h
  obtain ⟨d, hd, hload⟩ := loadBytes_din hready.pending (hle.trans (by cases s.var <;> decide))
  have hready' : s₀.ReadyAfter (s.withDin d) :=
    ⟨hready.pending, hready.err, hready.inputs, hready.draws, hready.returned⟩
  have hmay : (s.withDin d).MayAbsorb s.var x.length := ⟨hphase, rfl, hlimit⟩
  have hruns := absorb_runs (s := s.withDin d) hd hpos hle
  obtain ⟨ready, hsession⟩ := hready'.issue wait hruns.wf hruns.ne (hruns.check.trans hmay.check)
  rw [hruns.effect] at hsession
  rw [Machine.absorbBlock, hload]
  exact ⟨.of_session ready hsession rfl rfl (toNat_add_ofNat hlimit) rfl, phase_of_session hsession⟩

/-- R295, R296: a line for a block of the message. -/
theorem State.InSession.processBlock {cmd : Nat → Instr} {fed : List Byte → List Byte → List Byte}
    (hcmd : MessageRuns v cmd fed) (h : s₀.InSession v S a m s)
    (hphase : s.phase = .ad ∨ s.phase = .adPart ∨ s.phase = .msg) (hlimit : m + x.length < 2 ^ 61) (wait : State → Nat)
    (out : List Byte) : ∃ t, processBlock wait v (cmd x.length) x x.length (out, s) = (out ++ xorBytes x (zV v S), t) ∧
      s₀.InSession v (updV v S (fed x (zV v S))) a (m + x.length) t ∧ t.phase = blockPhase v .msg .msgPart x.length := by
  obtain ⟨hready, rfl, rfl, rfl, rfl⟩ := h
  have hrate : rate s.var ≤ 32 ∧ rate s.var / 4 ≤ 8 ∧ 4 * (rate s.var / 4) = rate s.var := by cases s.var <;> decide
  obtain ⟨hrate, hwords, hbytes⟩ := hrate
  obtain ⟨d, hd, hload⟩ := loadBytes_din hready.pending (hle.trans hrate)
  have hready' : s₀.ReadyAfter (s.withDin d) :=
    ⟨hready.pending, hready.err, hready.inputs, hready.draws, hready.returned⟩
  have hmay : (s.withDin d).MayProcess s.var x.length := ⟨hphase, rfl, hlimit⟩
  have hruns := hcmd (s.withDin d) x hd hpos hle
  obtain ⟨ready, hsession⟩ := hready'.issue wait hruns.wf hruns.ne (hruns.check.trans hmay.check)
  rw [hruns.effect] at hsession
  have hdout : (issue wait (cmd x.length) (s.withDin d)).dout = dataOf (xorBytes x (zV s.var s.S)) :=
    show (issue wait (cmd x.length) (s.withDin d)).session.dout = _ from congrArg State.dout hsession
  obtain ⟨t, hread, ready, hsession'⟩ := ready.readBytes (base := 0x160) (d := dataOf (xorBytes x (zV s.var s.S)))
    (fun k hk => by rw [regAt_dout hk, State.readReg, hdout]) hwords
  rw [hsession] at hsession'
  refine ⟨t, ?_, .of_session ready hsession' rfl rfl rfl (toNat_add_ofNat hlimit), phase_of_session hsession'⟩
  have hlen : (xorBytes x (zV s.var s.S)).length = x.length := length_xorBytes (by rwa [length_zV])
  have hout : (dataOf (xorBytes x (zV s.var s.S))).StartsWith (xorBytes x (zV s.var s.S)) :=
    fun j hj => get_dataOf _ (by omega)
  have htake := hout.take_toBytes (by omega)
  rw [hlen] at htake
  simp only [Machine.processBlock, hload, hread, hbytes, List.take_take, Nat.min_eq_left hle, htake]

end

end Sys2Proof.Machine
end

section
/-! The two host procedures as statements (spec/49_host_procedures.md R295, R296). -/

namespace Sys2Proof

theorem length_take_of_drop_ne_nil {r : Nat} {M : List Byte} (h : M.drop r ≠ []) : (M.take r).length = r := by
  have hlen := List.length_pos_iff.2 h
  rw [List.length_drop] at hlen
  rw [List.length_take]
  omega

theorem length_take_pos {r : Nat} (hr : 0 < r) {M : List Byte} (h : M ≠ []) : 0 < (M.take r).length := by
  have hlen := List.length_pos_iff.2 h
  rw [List.length_take]
  omega

theorem Data.StartsWith.agree_iff {d e : Data} {x y : List Byte} (hd : d.StartsWith x) (he : e.StartsWith y) {n : Nat}
    (hx : x.length = n) (hy : y.length = n) : (∀ j, j < n → d.get j = e.get j) ↔ y = x := by
  constructor
  · intro h
    refine List.ext_getElem (hy.trans hx.symm) fun j hjy hjx => ?_
    rw [← List.getD_eq_getElem _ 0 hjy, ← List.getD_eq_getElem _ 0 hjx, ← hd j hjx, ← he j hjy, h j (hx ▸ hjx)]
  · rintro rfl j hj
    rw [hd j (hx ▸ hj), he j (hx ▸ hj)]

end Sys2Proof

namespace Sys2Proof.Machine

/-! ### The loops -/

section
variable {s₀ s : State} {v : Variant} {S : Lanes}

/-- Between two blocks of associated data, `rest` still to come: the phase is `AD` unless the last block was partial. -/
def AbsorbLoop (s₀ : State) (v : Variant) (A rest : List Byte) (T : Lanes) (t : State) : Prop :=
  (∃ a, a + rest.length = A.length ∧ s₀.InSession v T a 0 t) ∧ (t.phase = .ad ∨ t.phase = .adPart ∧ rest = [])

theorem absorbAd_inSession (h : s₀.InSession v S 0 0 s) (hphase : s.phase = .ad) {A : List Byte} (hA : A.length < 2 ^ 61)
    (wait : State → Nat) : s₀.InSession v (absorbAll v S A) A.length 0 (absorbAd wait v A s) ∧
      ((absorbAd wait v A s).phase = .ad ∨ (absorbAd wait v A s).phase = .adPart) := by
  rw [absorbAll_eq, absorbAd_eq]
  have hloop : AbsorbLoop s₀ v A [] (foldBlocks (rate v) (updV v) S A) (foldBlocks (rate v) (absorbBlock wait v) s A) := by
    refine foldBlocks_rel (R := AbsorbLoop s₀ v A) (rate_pos v) (fun rest T t hne hR => ?_)
      ⟨⟨0, Nat.zero_add _, h⟩, .inl hphase⟩
    obtain ⟨⟨a, ha, hin⟩, hphase⟩ := hR
    have hsum := congrArg List.length (List.take_append_drop (rate v) rest)
    rw [List.length_append] at hsum
    obtain ⟨hin, hnext⟩ := hin.absorbBlock (length_take_pos (rate_pos v) hne) (List.length_take_le _ _)
      (hphase.resolve_right fun hend => hne hend.2) (by omega) wait
    refine ⟨⟨_, by omega, hin⟩, ?_⟩
    rw [hnext]
    by_cases hend : rest.drop (rate v) = []
    · rw [blockPhase]
      split
      · exact .inl rfl
      · exact .inr ⟨rfl, hend⟩
    · rw [length_take_of_drop_ne_nil hend]
      exact .inl (blockPhase_full _ _ _)
  obtain ⟨⟨a, ha, hin⟩, hphase⟩ := hloop
  obtain rfl : a = A.length := ha
  exact ⟨hin, hphase.imp_right And.left⟩

/-- Between two blocks of a message, `rest` still to come: the output so far, and a phase in which the next block is legal unless the
last one was partial. -/
def MessageLoop (s₀ : State) (v : Variant) (a : Nat) (M rest : List Byte) (acc : List Byte × Lanes)
    (run : List Byte × State) : Prop :=
  run.1 = acc.1 ∧ (∃ m, m + rest.length = M.length ∧ s₀.InSession v acc.2 a m run.2) ∧
    ((run.2.phase = .ad ∨ run.2.phase = .adPart ∨ run.2.phase = .msg) ∨ run.2.phase = .msgPart ∧ rest = [])

theorem processMessage_eq (wait : State → Nat) (v : Variant) (full : Instr) (part : Nat → Instr) (M : List Byte) (s : State) :
    processMessage wait v full part M s = foldBlocks (rate v)
      (fun acc x => processBlock wait v (blockCommand v full part x.length) x x.length acc) ([], s) M := by
  have hrest := length_slice_rest (r := rate v) M
  rw [processMessage, ← foldl_full_rest_eq_foldBlocks (rate_pos v)
    (full := fun acc x => processBlock wait v full x (rate v) acc)
    (part := fun acc x => processBlock wait v (part x.length) x x.length acc) M
    (fun acc x hx => by rw [hx, blockCommand_full]) fun acc x _ hx => by rw [blockCommand_part hx]]
  simp only [hrest]

theorem processMessage_inSession {a : Nat} {full : Instr} {part : Nat → Instr} {fed : List Byte → List Byte → List Byte}
    (hcmd : MessageRuns v (blockCommand v full part) fed) (h : s₀.InSession v S a 0 s)
    (hphase : s.phase = .ad ∨ s.phase = .adPart) {M : List Byte} (hM : M.length < 2 ^ 61) (wait : State → Nat)
    {acc : List Byte × Lanes} (hacc : acc = foldBlocks (rate v) (messageBlock v fed) ([], S) M) :
    ∃ t, processMessage wait v full part M s = (acc.1, t) ∧ s₀.InSession v acc.2 a M.length t ∧
      (t.phase = .ad ∨ t.phase = .adPart ∨ t.phase = .msg ∨ t.phase = .msgPart) := by
  have hloop : MessageLoop s₀ v a M [] acc (processMessage wait v full part M s) := by
    rw [hacc, processMessage_eq]
    refine foldBlocks_rel (R := MessageLoop s₀ v a M) (rate_pos v) (fun rest acc run hne hR => ?_)
      ⟨rfl, ⟨0, Nat.zero_add _, h⟩, .inl (by tauto)⟩
    obtain ⟨out, t⟩ := run
    obtain ⟨rfl, ⟨m, hm, hin⟩, hphase⟩ := hR
    have hsum := congrArg List.length (List.take_append_drop (rate v) rest)
    rw [List.length_append] at hsum
    obtain ⟨u, hrun, hin, hnext⟩ := hin.processBlock (length_take_pos (rate_pos v) hne) (List.length_take_le _ _) hcmd
      (hphase.resolve_right fun hend => hne hend.2) (by omega) wait acc.1
    rw [hrun]
    refine ⟨rfl, ⟨_, by omega, hin⟩, ?_⟩
    rw [hnext]
    by_cases hend : rest.drop (rate v) = []
    · rw [blockPhase]
      split
      · exact .inl (.inr (.inr rfl))
      · exact .inr ⟨rfl, hend⟩
    · rw [length_take_of_drop_ne_nil hend]
      exact .inl (.inr (.inr (blockPhase_full _ _ _)))
  obtain ⟨hout, ⟨m, hm, hin⟩, hphase⟩ := hloop
  obtain rfl : m = M.length := hm
  exact ⟨_, Prod.ext hout rfl, hin, by tauto⟩

/-! ### The tag and the verdict -/

/-- R295, R296: `FINAL.v t`. -/
theorem State.InSession.finish {a m : Nat} (h : s₀.InSession v S a m s)
    (hphase : s.phase = .ad ∨ s.phase = .adPart ∨ s.phase = .msg ∨ s.phase = .msgPart) (t : TagSize) (wait : State → Nat) :
    s₀.ReadyAfter (issue wait (finalOf v t) s) ∧ (issue wait (finalOf v t) s).phase = .done ∧
      (issue wait (finalOf v t) s).tlen = t ∧
      (issue wait (finalOf v t) s).tagout.StartsWith (tagV v (finV v S a m) t) := by
  obtain ⟨hready, rfl, rfl, rfl, rfl⟩ := h
  have hmay : s.MayFinish s.var := ⟨hphase, rfl⟩
  have heffect : effect (finalOf s.var t) s = s.finish (finV s.var s.S s.adcnt.toNat s.msgcnt.toNat) t
      (tagV s.var (finV s.var s.S s.adcnt.toNat s.msgcnt.toNat) t) := by
    cases s.var <;> simp only [finalOf, effect, finV, tagV, BitVec.ofNat_toNat, BitVec.setWidth_eq]
  have hcheck : stateCheck (finalOf s.var t) s = orderCheck s.var finalPhases s := by cases s.var <;> rfl
  obtain ⟨ready, hsession⟩ := hready.issue (i := finalOf s.var t) wait (by cases s.var <;> rfl)
    (by cases s.var <;> exact nofun) (hcheck.trans hmay.check)
  rw [heffect] at hsession
  refine ⟨ready, phase_of_session hsession,
    show (issue wait (finalOf s.var t) s).session.tlen = t by rw [hsession]; rfl, fun j hj => ?_⟩
  rw [length_tagV] at hj
  have htag : tagBytes t ≤ 32 := by cases t <;> decide
  have htagout : (issue wait (finalOf s.var t) s).tagout =
      padData (fun i => (tagV s.var (finV s.var s.S s.adcnt.toNat s.msgcnt.toNat) t).getD i 0) (tagBytes t) :=
    show (issue wait (finalOf s.var t) s).session.tagout = _ by rw [hsession]; rfl
  rw [htagout, get_padData_of_lt _ _ (by omega), if_pos hj]

/-- R295: `RDTAG`. -/
theorem State.ReadyAfter.readTag (h : s₀.ReadyAfter s) {t : TagSize} {tag : List Byte} (hlen : tag.length = tagBytes t)
    (htag : s.tagout.StartsWith tag) : ∃ u, Machine.readBytes 0x1A0 (tagBytes t / 4) s = (tag, u) ∧ s₀.ReadyAfter u := by
  have hsize : tagBytes t ≤ 32 ∧ tagBytes t / 4 ≤ 8 ∧ 4 * (tagBytes t / 4) = tagBytes t := by cases t <;> decide
  obtain ⟨hsize, hwords, hbytes⟩ := hsize
  obtain ⟨u, hread, ready, -⟩ := h.readBytes (base := 0x1A0) (d := s.tagout)
    (fun k hk => by rw [regAt_tagout hk, State.readReg]) hwords
  rw [hbytes, ← hlen, htag.take_toBytes (hlen.trans_le hsize), hlen] at hread
  exact ⟨u, hread, ready⟩

/-- R296: `LDTAG T; VERIFY`. -/
theorem State.ReadyAfter.verify (h : s₀.ReadyAfter s) (hphase : s.phase = .done) {tag T : List Byte}
    (htag : s.tagout.StartsWith tag) (hlen : tag.length = tagBytes s.tlen) (hT : T.length = tagBytes s.tlen)
    (wait : State → Nat) : s₀.ReadyAfter (Machine.issue wait .verify (loadBytes 0x180 T s)) ∧
      ((Machine.issue wait .verify (loadBytes 0x180 T s)).auth = true ↔ tag = T) := by
  have hsize : tagBytes s.tlen ≤ 32 := by cases s.tlen <;> decide
  obtain ⟨d, hd, hload⟩ := loadBytes_tagin h.pending (hT.trans_le hsize)
  have hready : s₀.ReadyAfter { s with tagin := d } := ⟨h.pending, h.err, h.inputs, h.draws, h.returned⟩
  rw [hload]
  obtain ⟨ready, hsession⟩ := hready.issue (i := .verify) wait rfl nofun (if_pos hphase)
  have hauth : (Machine.issue wait .verify { s with tagin := d }).auth = (effect .verify { s with tagin := d }).auth :=
    show State.auth (State.session _) = State.auth (State.session _) by rw [hsession]
  exact ⟨ready, by rw [hauth, effect_verify_auth]; exact hd.agree_iff htag hT hlen⟩

/-- R295, R296: both procedures up to the end of the message. -/
theorem run_message {wait : State → Nat} {K N A M : List Byte} {full : Instr} {part : Nat → Instr}
    {fed : List Byte → List Byte → List Byte} (hcmd : MessageRuns v (blockCommand v full part) fed) (hp : s.pending = none)
    (herr : s.err = false) (hK : K.length = keySize v) (hN : N.length = nonceSize v) (hA : A.length < 2 ^ 61)
    (hM : M.length < 2 ^ 61) {acc : List Byte × Lanes}
    (hacc : acc = foldBlocks (rate v) (messageBlock v fed) ([], absorbAll v (initV v K N) A) M) :
    ∃ t, processMessage wait v full part M (absorbAd wait v A (openSession wait v K N s)) = (acc.1, t) ∧
      s.InSession v acc.2 A.length M.length t ∧
      (t.phase = .ad ∨ t.phase = .adPart ∨ t.phase = .msg ∨ t.phase = .msgPart) := by
  obtain ⟨hopen, hphase⟩ := openSession_inSession hp herr wait hK hN
  obtain ⟨had, hphase⟩ := absorbAd_inSession hopen hphase hA wait
  exact processMessage_inSession hcmd had hphase hM wait hacc

end

/-! ### The statements -/

/-- Settles O57: the lines go through the states of `AeadEncrypt` block by block; the tag is read, no error is found, and `ZEROIZE`
ends the run. -/
theorem hostEncryptComputesAead : Obligations.HostEncryptComputesAead := by
  unfold Obligations.HostEncryptComputesAead
  intro wait v K N A M t s hp herr hK hN hA hM
  obtain ⟨u, hrun, hin, hphase⟩ := run_message (wait := wait) (encrypt_runs v) hp herr hK hN hA hM
    (encryptBlocks_eq v (absorbAll v (initV v K N) A) M)
  obtain ⟨ready, -, -, htag⟩ := hin.finish hphase t wait
  obtain ⟨u', hread, ready⟩ := ready.readTag (length_tagV _ _ _) htag
  obtain ⟨u'', hstatus, ready''⟩ := ready.rd_status
  obtain ⟨reads, hzero⟩ := ready''.issue_zeroize wait
  have hvalid : validLengths v K N A M = true := decide_eq_true ⟨hK, hN, hA, hM⟩
  refine ⟨reads, ?_⟩
  rw [hostEncrypt, if_pos hvalid]
  simp only [hrun, hread, hstatus, statusWord_bit2, ready.err, hzero]
  rfl

/-- Settles O58: the same for decryption; the verdict is read from `STATUS` and is that of `AeadDecrypt`, since `VERIFY` compares
all bytes of the two tags. -/
theorem hostTryDecryptComputesAead : Obligations.HostTryDecryptComputesAead := by
  unfold Obligations.HostTryDecryptComputesAead
  intro wait v K N A X t s hp herr hK hN hA htX hX
  generalize hC : slice X 0 (X.length - tagBytes t) = C
  generalize hT : slice X (X.length - tagBytes t) X.length = T
  have hClen : C.length = X.length - tagBytes t := by
    rw [← hC, slice, List.length_take, List.length_drop]
    omega
  have hTlen : T.length = tagBytes t := by
    rw [← hT, slice, List.length_take, List.length_drop]
    omega
  obtain ⟨u, hrun, hin, hphase⟩ := run_message (wait := wait) (decrypt_runs v) hp herr hK hN hA (hClen ▸ hX)
    (decryptBlocks_eq v (absorbAll v (initV v K N) A) C)
  obtain ⟨ready, hdone, htlen, htag⟩ := hin.finish hphase t wait
  obtain ⟨ready, hauth⟩ := ready.verify hdone htag (by rw [htlen, length_tagV]) (by rw [htlen, hTlen]) wait
  obtain ⟨u', hstatus, ready'⟩ := ready.rd_status
  obtain ⟨reads, hzero⟩ := ready'.issue_zeroize wait
  have hvalid : tagBytes t ≤ X.length ∧ validLengths v K N A C = true :=
    ⟨htX, decide_eq_true ⟨hK, hN, hA, hClen ▸ hX⟩⟩
  have hout : (decryptBlocks v (absorbAll v (initV v K N) A) C).1.length = C.length := by
    rw [decryptBlocks_eq]
    exact length_messageBlocks v fedDecrypt _ C
  refine ⟨reads, ?_⟩
  rw [hostTryDecrypt, aeadDecrypt, hC, hT, if_pos hvalid]
  simp only [hrun, hstatus, statusWord_bit2, statusWord_bit4, ready.err, Bool.false_eq_true, if_false, hauth, hzero,
    hout]
  split_ifs <;> rfl

end Sys2Proof.Machine
end
